-- ==== Sys2Proof/Word.lean ====
section
/-! DEFINITION. The two word widths of the hardware (00_scope.md R2): the 8-bit data byte and the 16-bit address. -/

namespace Sys2Proof

/-- What the eight data pins carry, and what A, X, Y and SP hold (R2, R10, R11, R12). -/
abbrev Byte := BitVec 8

/-- What the sixteen address pins carry, and what PC holds (R2, R13). -/
abbrev Addr := BitVec 16

end Sys2Proof
end

