-- ==== Sys2Proof/Syntax.lean ====
section
/-! DEFINITION. The instructions, one constructor for each of the 151 rows of spec/opcode_table.json, and the two names that
tell a row from the others: its mnemonic and its addressing mode. An operand byte stands as the byte it is, a two-byte
operand as the 16-bit value `b2:b1` it means (30_encoding.md R70, R73). -/

namespace Sys2Proof

/-- The thirteen addressing modes (30_encoding.md R74 to R86). -/
inductive Mode where
  | implied
  | accumulator
  | immediate
  | relative
  | zeroPage
  | zeroPageX
  | zeroPageY
  | absolute
  | absoluteX
  | absoluteY
  | indirect
  | indirectX
  | indirectY
deriving DecidableEq, Repr

/-- The 56 mnemonics (00_scope.md R1, 30_encoding.md R87). -/
inductive Mnemonic where
  | adc | cmp | cpx | cpy | sbc | and | bit | eor
  | ora | asl | lsr | rol | ror | bcc | bcs | beq
  | bmi | bne | bpl | bvc | bvs | brk | nop | rti
  | clc | cld | cli | clv | sec | sed | sei | dec
  | dex | dey | inc | inx | iny | jmp | jsr | rts
  | lda | ldx | ldy | sta | stx | sty | pha | php
  | pla | plp | tax | tay | tsx | txa | txs | tya
deriving DecidableEq, Repr

/-- An instruction: one constructor per assigned opcode (30_encoding.md R87, R88). -/
inductive Instr where
  -- Arithmetic and compare (40_arithmetic.md)
  | adcImm (b : Byte)
  | adcZp (b : Byte)
  | adcZpx (b : Byte)
  | adcAbs (w : Addr)
  | adcAbx (w : Addr)
  | adcAby (w : Addr)
  | adcIzx (b : Byte)
  | adcIzy (b : Byte)
  | cmpImm (b : Byte)
  | cmpZp (b : Byte)
  | cmpZpx (b : Byte)
  | cmpAbs (w : Addr)
  | cmpAbx (w : Addr)
  | cmpAby (w : Addr)
  | cmpIzx (b : Byte)
  | cmpIzy (b : Byte)
  | cpxImm (b : Byte)
  | cpxZp (b : Byte)
  | cpxAbs (w : Addr)
  | cpyImm (b : Byte)
  | cpyZp (b : Byte)
  | cpyAbs (w : Addr)
  | sbcImm (b : Byte)
  | sbcZp (b : Byte)
  | sbcZpx (b : Byte)
  | sbcAbs (w : Addr)
  | sbcAbx (w : Addr)
  | sbcAby (w : Addr)
  | sbcIzx (b : Byte)
  | sbcIzy (b : Byte)
  -- Logical (41_logical.md)
  | andImm (b : Byte)
  | andZp (b : Byte)
  | andZpx (b : Byte)
  | andAbs (w : Addr)
  | andAbx (w : Addr)
  | andAby (w : Addr)
  | andIzx (b : Byte)
  | andIzy (b : Byte)
  | bitZp (b : Byte)
  | bitAbs (w : Addr)
  | eorImm (b : Byte)
  | eorZp (b : Byte)
  | eorZpx (b : Byte)
  | eorAbs (w : Addr)
  | eorAbx (w : Addr)
  | eorAby (w : Addr)
  | eorIzx (b : Byte)
  | eorIzy (b : Byte)
  | oraImm (b : Byte)
  | oraZp (b : Byte)
  | oraZpx (b : Byte)
  | oraAbs (w : Addr)
  | oraAbx (w : Addr)
  | oraAby (w : Addr)
  | oraIzx (b : Byte)
  | oraIzy (b : Byte)
  -- Shift and rotate (42_shift_rotate.md)
  | aslAcc
  | aslZp (b : Byte)
  | aslZpx (b : Byte)
  | aslAbs (w : Addr)
  | aslAbx (w : Addr)
  | lsrAcc
  | lsrZp (b : Byte)
  | lsrZpx (b : Byte)
  | lsrAbs (w : Addr)
  | lsrAbx (w : Addr)
  | rolAcc
  | rolZp (b : Byte)
  | rolZpx (b : Byte)
  | rolAbs (w : Addr)
  | rolAbx (w : Addr)
  | rorAcc
  | rorZp (b : Byte)
  | rorZpx (b : Byte)
  | rorAbs (w : Addr)
  | rorAbx (w : Addr)
  -- Branches (43_branch.md)
  | bcc (d : Byte)
  | bcs (d : Byte)
  | beq (d : Byte)
  | bmi (d : Byte)
  | bne (d : Byte)
  | bpl (d : Byte)
  | bvc (d : Byte)
  | bvs (d : Byte)
  -- System (44_system.md)
  | brk
  | nop
  | rti
  -- Flags (45_flag.md)
  | clc
  | cld
  | cli
  | clv
  | sec
  | sed
  | sei
  -- Increment and decrement (46_incdec.md)
  | decZp (b : Byte)
  | decZpx (b : Byte)
  | decAbs (w : Addr)
  | decAbx (w : Addr)
  | dex
  | dey
  | incZp (b : Byte)
  | incZpx (b : Byte)
  | incAbs (w : Addr)
  | incAbx (w : Addr)
  | inx
  | iny
  -- Jump and subroutine (47_jump_subroutine.md)
  | jmpAbs (w : Addr)
  | jmpInd (w : Addr)
  | jsr (w : Addr)
  | rts
  -- Load and store (48_load_store.md)
  | ldaImm (b : Byte)
  | ldaZp (b : Byte)
  | ldaZpx (b : Byte)
  | ldaAbs (w : Addr)
  | ldaAbx (w : Addr)
  | ldaAby (w : Addr)
  | ldaIzx (b : Byte)
  | ldaIzy (b : Byte)
  | ldxImm (b : Byte)
  | ldxZp (b : Byte)
  | ldxZpy (b : Byte)
  | ldxAbs (w : Addr)
  | ldxAby (w : Addr)
  | ldyImm (b : Byte)
  | ldyZp (b : Byte)
  | ldyZpx (b : Byte)
  | ldyAbs (w : Addr)
  | ldyAbx (w : Addr)
  | staZp (b : Byte)
  | staZpx (b : Byte)
  | staAbs (w : Addr)
  | staAbx (w : Addr)
  | staAby (w : Addr)
  | staIzx (b : Byte)
  | staIzy (b : Byte)
  | stxZp (b : Byte)
  | stxZpy (b : Byte)
  | stxAbs (w : Addr)
  | styZp (b : Byte)
  | styZpx (b : Byte)
  | styAbs (w : Addr)
  -- Stack and transfer (49_stack_transfer.md)
  | pha
  | php
  | pla
  | plp
  | tax
  | tay
  | tsx
  | txa
  | txs
  | tya
deriving DecidableEq, Repr

/-- The mnemonic of an instruction (30_encoding.md R87). -/
def Instr.mnemonic : Instr → Mnemonic
  | .adcImm _ | .adcZp _ | .adcZpx _ | .adcAbs _ | .adcAbx _ | .adcAby _ | .adcIzx _ | .adcIzy _ => .adc
  | .cmpImm _ | .cmpZp _ | .cmpZpx _ | .cmpAbs _ | .cmpAbx _ | .cmpAby _ | .cmpIzx _ | .cmpIzy _ => .cmp
  | .cpxImm _ | .cpxZp _ | .cpxAbs _ => .cpx
  | .cpyImm _ | .cpyZp _ | .cpyAbs _ => .cpy
  | .sbcImm _ | .sbcZp _ | .sbcZpx _ | .sbcAbs _ | .sbcAbx _ | .sbcAby _ | .sbcIzx _ | .sbcIzy _ => .sbc
  | .andImm _ | .andZp _ | .andZpx _ | .andAbs _ | .andAbx _ | .andAby _ | .andIzx _ | .andIzy _ => .and
  | .bitZp _ | .bitAbs _ => .bit
  | .eorImm _ | .eorZp _ | .eorZpx _ | .eorAbs _ | .eorAbx _ | .eorAby _ | .eorIzx _ | .eorIzy _ => .eor
  | .oraImm _ | .oraZp _ | .oraZpx _ | .oraAbs _ | .oraAbx _ | .oraAby _ | .oraIzx _ | .oraIzy _ => .ora
  | .aslAcc | .aslZp _ | .aslZpx _ | .aslAbs _ | .aslAbx _ => .asl
  | .lsrAcc | .lsrZp _ | .lsrZpx _ | .lsrAbs _ | .lsrAbx _ => .lsr
  | .rolAcc | .rolZp _ | .rolZpx _ | .rolAbs _ | .rolAbx _ => .rol
  | .rorAcc | .rorZp _ | .rorZpx _ | .rorAbs _ | .rorAbx _ => .ror
  | .bcc _ => .bcc
  | .bcs _ => .bcs
  | .beq _ => .beq
  | .bmi _ => .bmi
  | .bne _ => .bne
  | .bpl _ => .bpl
  | .bvc _ => .bvc
  | .bvs _ => .bvs
  | .brk => .brk
  | .nop => .nop
  | .rti => .rti
  | .clc => .clc
  | .cld => .cld
  | .cli => .cli
  | .clv => .clv
  | .sec => .sec
  | .sed => .sed
  | .sei => .sei
  | .decZp _ | .decZpx _ | .decAbs _ | .decAbx _ => .dec
  | .dex => .dex
  | .dey => .dey
  | .incZp _ | .incZpx _ | .incAbs _ | .incAbx _ => .inc
  | .inx => .inx
  | .iny => .iny
  | .jmpAbs _ | .jmpInd _ => .jmp
  | .jsr _ => .jsr
  | .rts => .rts
  | .ldaImm _ | .ldaZp _ | .ldaZpx _ | .ldaAbs _ | .ldaAbx _ | .ldaAby _ | .ldaIzx _ | .ldaIzy _ => .lda
  | .ldxImm _ | .ldxZp _ | .ldxZpy _ | .ldxAbs _ | .ldxAby _ => .ldx
  | .ldyImm _ | .ldyZp _ | .ldyZpx _ | .ldyAbs _ | .ldyAbx _ => .ldy
  | .staZp _ | .staZpx _ | .staAbs _ | .staAbx _ | .staAby _ | .staIzx _ | .staIzy _ => .sta
  | .stxZp _ | .stxZpy _ | .stxAbs _ => .stx
  | .styZp _ | .styZpx _ | .styAbs _ => .sty
  | .pha => .pha
  | .php => .php
  | .pla => .pla
  | .plp => .plp
  | .tax => .tax
  | .tay => .tay
  | .tsx => .tsx
  | .txa => .txa
  | .txs => .txs
  | .tya => .tya

/-- The addressing mode of an instruction (30_encoding.md R87, R88). -/
def Instr.mode : Instr → Mode
  -- implied
  | .brk | .nop | .rti | .clc | .cld
  | .cli | .clv | .sec | .sed | .sei
  | .dex | .dey | .inx | .iny | .rts
  | .pha | .php | .pla | .plp | .tax
  | .tay | .tsx | .txa | .txs | .tya => .implied
  -- accumulator
  | .aslAcc | .lsrAcc | .rolAcc | .rorAcc => .accumulator
  -- immediate
  | .adcImm _ | .cmpImm _ | .cpxImm _ | .cpyImm _ | .sbcImm _
  | .andImm _ | .eorImm _ | .oraImm _ | .ldaImm _ | .ldxImm _
  | .ldyImm _ => .immediate
  -- relative
  | .bcc _ | .bcs _ | .beq _ | .bmi _ | .bne _
  | .bpl _ | .bvc _ | .bvs _ => .relative
  -- zeroPage
  | .adcZp _ | .cmpZp _ | .cpxZp _ | .cpyZp _ | .sbcZp _
  | .andZp _ | .bitZp _ | .eorZp _ | .oraZp _ | .aslZp _
  | .lsrZp _ | .rolZp _ | .rorZp _ | .decZp _ | .incZp _
  | .ldaZp _ | .ldxZp _ | .ldyZp _ | .staZp _ | .stxZp _
  | .styZp _ => .zeroPage
  -- zeroPageX
  | .adcZpx _ | .cmpZpx _ | .sbcZpx _ | .andZpx _ | .eorZpx _
  | .oraZpx _ | .aslZpx _ | .lsrZpx _ | .rolZpx _ | .rorZpx _
  | .decZpx _ | .incZpx _ | .ldaZpx _ | .ldyZpx _ | .staZpx _
  | .styZpx _ => .zeroPageX
  -- zeroPageY
  | .ldxZpy _ | .stxZpy _ => .zeroPageY
  -- absolute
  | .adcAbs _ | .cmpAbs _ | .cpxAbs _ | .cpyAbs _ | .sbcAbs _
  | .andAbs _ | .bitAbs _ | .eorAbs _ | .oraAbs _ | .aslAbs _
  | .lsrAbs _ | .rolAbs _ | .rorAbs _ | .decAbs _ | .incAbs _
  | .jmpAbs _ | .jsr _ | .ldaAbs _ | .ldxAbs _ | .ldyAbs _
  | .staAbs _ | .stxAbs _ | .styAbs _ => .absolute
  -- absoluteX
  | .adcAbx _ | .cmpAbx _ | .sbcAbx _ | .andAbx _ | .eorAbx _
  | .oraAbx _ | .aslAbx _ | .lsrAbx _ | .rolAbx _ | .rorAbx _
  | .decAbx _ | .incAbx _ | .ldaAbx _ | .ldyAbx _ | .staAbx _ => .absoluteX
  -- absoluteY
  | .adcAby _ | .cmpAby _ | .sbcAby _ | .andAby _ | .eorAby _
  | .oraAby _ | .ldaAby _ | .ldxAby _ | .staAby _ => .absoluteY
  -- indirect
  | .jmpInd _ => .indirect
  -- indirectX
  | .adcIzx _ | .cmpIzx _ | .sbcIzx _ | .andIzx _ | .eorIzx _
  | .oraIzx _ | .ldaIzx _ | .staIzx _ => .indirectX
  -- indirectY
  | .adcIzy _ | .cmpIzy _ | .sbcIzy _ | .andIzy _ | .eorIzy _
  | .oraIzy _ | .ldaIzy _ | .staIzy _ => .indirectY

/-- What stands after the opcode byte: nothing, one byte, or one 16-bit value (30_encoding.md R70, formats F1, F2, F3). -/
inductive OperandField where
  | none
  | byte (b : Byte)
  | word (w : Addr)
deriving DecidableEq, Repr

/-- The operand of an instruction (30_encoding.md R70, R73). -/
def Instr.operand : Instr → OperandField
  | .aslAcc | .lsrAcc | .rolAcc | .rorAcc | .brk | .nop
  | .rti | .clc | .cld | .cli | .clv | .sec
  | .sed | .sei | .dex | .dey | .inx | .iny
  | .rts | .pha | .php | .pla | .plp | .tax
  | .tay | .tsx | .txa | .txs | .tya => .none
  | .adcImm b | .adcZp b | .adcZpx b | .adcIzx b | .adcIzy b | .cmpImm b
  | .cmpZp b | .cmpZpx b | .cmpIzx b | .cmpIzy b | .cpxImm b | .cpxZp b
  | .cpyImm b | .cpyZp b | .sbcImm b | .sbcZp b | .sbcZpx b | .sbcIzx b
  | .sbcIzy b | .andImm b | .andZp b | .andZpx b | .andIzx b | .andIzy b
  | .bitZp b | .eorImm b | .eorZp b | .eorZpx b | .eorIzx b | .eorIzy b
  | .oraImm b | .oraZp b | .oraZpx b | .oraIzx b | .oraIzy b | .aslZp b
  | .aslZpx b | .lsrZp b | .lsrZpx b | .rolZp b | .rolZpx b | .rorZp b
  | .rorZpx b | .bcc b | .bcs b | .beq b | .bmi b | .bne b
  | .bpl b | .bvc b | .bvs b | .decZp b | .decZpx b | .incZp b
  | .incZpx b | .ldaImm b | .ldaZp b | .ldaZpx b | .ldaIzx b | .ldaIzy b
  | .ldxImm b | .ldxZp b | .ldxZpy b | .ldyImm b | .ldyZp b | .ldyZpx b
  | .staZp b | .staZpx b | .staIzx b | .staIzy b | .stxZp b | .stxZpy b
  | .styZp b | .styZpx b => .byte b
  | .adcAbs b | .adcAbx b | .adcAby b | .cmpAbs b | .cmpAbx b | .cmpAby b
  | .cpxAbs b | .cpyAbs b | .sbcAbs b | .sbcAbx b | .sbcAby b | .andAbs b
  | .andAbx b | .andAby b | .bitAbs b | .eorAbs b | .eorAbx b | .eorAby b
  | .oraAbs b | .oraAbx b | .oraAby b | .aslAbs b | .aslAbx b | .lsrAbs b
  | .lsrAbx b | .rolAbs b | .rolAbx b | .rorAbs b | .rorAbx b | .decAbs b
  | .decAbx b | .incAbs b | .incAbx b | .jmpAbs b | .jmpInd b | .jsr b
  | .ldaAbs b | .ldaAbx b | .ldaAby b | .ldxAbs b | .ldxAby b | .ldyAbs b
  | .ldyAbx b | .staAbs b | .staAbx b | .staAby b | .stxAbs b | .styAbs b => .word b

end Sys2Proof
end

