-- ==== Sys2Proof/WellFormed.lean ====
section
/-! DEFINITION. Well-formedness. A `Form` is an instruction as a line of assembler or a row of a table names it: a
mnemonic, an addressing mode, an operand. It is well formed when the mode is one the mnemonic's section lists
(30_encoding.md R89: a mnemonic with a mode its section does not list has no encoding) and when it has the number of operand
bytes the mode's format has (R70). Every value of an operand byte is legal (R71, R92), so nothing else is checked, and a term of
`Instr`, whose constructors are the table's rows, is always well formed. -/

namespace Sys2Proof

/-- A mnemonic, a mode and an operand, not yet checked. -/
structure Form where
  mnemonic : Mnemonic
  mode     : Mode
  operand  : OperandField
deriving DecidableEq, Repr

/-- The number of operand bytes of a mode (30_encoding.md R70). -/
def Mode.operandBytes : Mode → Nat
  | .implied | .accumulator => 0
  | .immediate | .relative | .zeroPage | .zeroPageX | .zeroPageY | .indirectX | .indirectY => 1
  | .absolute | .absoluteX | .absoluteY | .indirect => 2

/-- The length in bytes of an instruction of a mode, the opcode byte included (30_encoding.md R70). -/
def Mode.length (m : Mode) : Nat := m.operandBytes + 1

/-- The modes each mnemonic's section lists (the Encodings table of each instruction rule; 30_encoding.md R87). -/
def Mnemonic.modes : Mnemonic → List Mode
  | .adc | .cmp | .sbc | .and | .eor | .ora | .lda =>
      [.immediate, .zeroPage, .zeroPageX, .absolute, .absoluteX, .absoluteY, .indirectX, .indirectY]
  | .cpx | .cpy =>
      [.immediate, .zeroPage, .absolute]
  | .bit =>
      [.zeroPage, .absolute]
  | .asl | .lsr | .rol | .ror =>
      [.accumulator, .zeroPage, .zeroPageX, .absolute, .absoluteX]
  | .bcc | .bcs | .beq | .bmi | .bne | .bpl | .bvc | .bvs =>
      [.relative]
  | .brk | .nop | .rti | .clc | .cld | .cli | .clv | .sec | .sed | .sei | .dex | .dey
  | .inx | .iny | .rts | .pha | .php | .pla | .plp | .tax | .tay | .tsx | .txa | .txs
  | .tya =>
      [.implied]
  | .dec | .inc =>
      [.zeroPage, .zeroPageX, .absolute, .absoluteX]
  | .jmp =>
      [.absolute, .indirect]
  | .jsr =>
      [.absolute]
  | .ldx =>
      [.immediate, .zeroPage, .zeroPageY, .absolute, .absoluteY]
  | .ldy =>
      [.immediate, .zeroPage, .zeroPageX, .absolute, .absoluteX]
  | .sta =>
      [.zeroPage, .zeroPageX, .absolute, .absoluteX, .absoluteY, .indirectX, .indirectY]
  | .stx =>
      [.zeroPage, .zeroPageY, .absolute]
  | .sty =>
      [.zeroPage, .zeroPageX, .absolute]

/-- The number of bytes of an operand (30_encoding.md R70). -/
def OperandField.size : OperandField → Nat
  | .none => 0
  | .byte _ => 1
  | .word _ => 2

/-- Check 1 (30_encoding.md R89): the mode is one the mnemonic has. -/
def Form.modeListed (f : Form) : Bool := f.mnemonic.modes.contains f.mode

/-- Check 2 (30_encoding.md R70): the mode's number of operand bytes. -/
def Form.operandsFit (f : Form) : Bool := f.operand.size == f.mode.operandBytes

/-- A form that has an encoding. -/
def Form.wellFormed (f : Form) : Bool := f.modeListed && f.operandsFit

/-- The form an instruction stands for. -/
def Instr.form (i : Instr) : Form := ⟨i.mnemonic, i.mode, i.operand⟩

/-- The well-formedness of an instruction: that of its form. -/
def Instr.wellFormed (i : Instr) : Bool := i.form.wellFormed

/-- The length in bytes of an instruction (30_encoding.md R70). -/
def Instr.length (i : Instr) : Nat := i.mode.length

end Sys2Proof
end

