-- ==== Sys2Proof/Decode.lean ====
section
/-! DEFINITION. Decoding and encoding. The decoder is the opcode map of 30_encoding.md R87, one row of the grid at a time,
and the operand assembly of R73; the encoder is written apart from it, from the Encodings tables of the instruction rules. The
byte-order helpers stand here. -/

namespace Sys2Proof

/-- `hi:lo`, the 16-bit value `hi * 256 + lo` (00_scope.md R4). -/
def joinBytes (hi lo : Byte) : Addr := hi ++ lo

/-- `lo(w) = w[7:0]` (00_scope.md R4). -/
def lowByte (w : Addr) : Byte := w.setWidth 8

/-- `hi(w) = w[15:8]` (00_scope.md R4). -/
def highByte (w : Addr) : Byte := w.extractLsb' 8 8

/-- What an opcode byte asks for: an instruction that is complete (format F1), one that takes a byte (F2), or one that takes
a 16-bit operand (F3). 30_encoding.md R70, R71. -/
inductive Shape where
  | implied (i : Instr)
  | byte (f : Byte → Instr)
  | word (f : Addr → Instr)

/-- Row `0_` of the opcode grid (30_encoding.md R87). -/
def gridRow0 : List (Nat × Shape) :=
  [(0x00, .implied .brk), (0x01, .byte .oraIzx), (0x05, .byte .oraZp), (0x06, .byte .aslZp),
   (0x08, .implied .php), (0x09, .byte .oraImm), (0x0A, .implied .aslAcc), (0x0D, .word .oraAbs),
   (0x0E, .word .aslAbs)]

/-- Row `1_` of the opcode grid (30_encoding.md R87). -/
def gridRow1 : List (Nat × Shape) :=
  [(0x10, .byte .bpl), (0x11, .byte .oraIzy), (0x15, .byte .oraZpx), (0x16, .byte .aslZpx),
   (0x18, .implied .clc), (0x19, .word .oraAby), (0x1D, .word .oraAbx), (0x1E, .word .aslAbx)]

/-- Row `2_` of the opcode grid (30_encoding.md R87). -/
def gridRow2 : List (Nat × Shape) :=
  [(0x20, .word .jsr), (0x21, .byte .andIzx), (0x24, .byte .bitZp), (0x25, .byte .andZp),
   (0x26, .byte .rolZp), (0x28, .implied .plp), (0x29, .byte .andImm), (0x2A, .implied .rolAcc),
   (0x2C, .word .bitAbs), (0x2D, .word .andAbs), (0x2E, .word .rolAbs)]

/-- Row `3_` of the opcode grid (30_encoding.md R87). -/
def gridRow3 : List (Nat × Shape) :=
  [(0x30, .byte .bmi), (0x31, .byte .andIzy), (0x35, .byte .andZpx), (0x36, .byte .rolZpx),
   (0x38, .implied .sec), (0x39, .word .andAby), (0x3D, .word .andAbx), (0x3E, .word .rolAbx)]

/-- Row `4_` of the opcode grid (30_encoding.md R87). -/
def gridRow4 : List (Nat × Shape) :=
  [(0x40, .implied .rti), (0x41, .byte .eorIzx), (0x45, .byte .eorZp), (0x46, .byte .lsrZp),
   (0x48, .implied .pha), (0x49, .byte .eorImm), (0x4A, .implied .lsrAcc), (0x4C, .word .jmpAbs),
   (0x4D, .word .eorAbs), (0x4E, .word .lsrAbs)]

/-- Row `5_` of the opcode grid (30_encoding.md R87). -/
def gridRow5 : List (Nat × Shape) :=
  [(0x50, .byte .bvc), (0x51, .byte .eorIzy), (0x55, .byte .eorZpx), (0x56, .byte .lsrZpx),
   (0x58, .implied .cli), (0x59, .word .eorAby), (0x5D, .word .eorAbx), (0x5E, .word .lsrAbx)]

/-- Row `6_` of the opcode grid (30_encoding.md R87). -/
def gridRow6 : List (Nat × Shape) :=
  [(0x60, .implied .rts), (0x61, .byte .adcIzx), (0x65, .byte .adcZp), (0x66, .byte .rorZp),
   (0x68, .implied .pla), (0x69, .byte .adcImm), (0x6A, .implied .rorAcc), (0x6C, .word .jmpInd),
   (0x6D, .word .adcAbs), (0x6E, .word .rorAbs)]

/-- Row `7_` of the opcode grid (30_encoding.md R87). -/
def gridRow7 : List (Nat × Shape) :=
  [(0x70, .byte .bvs), (0x71, .byte .adcIzy), (0x75, .byte .adcZpx), (0x76, .byte .rorZpx),
   (0x78, .implied .sei), (0x79, .word .adcAby), (0x7D, .word .adcAbx), (0x7E, .word .rorAbx)]

/-- Row `8_` of the opcode grid (30_encoding.md R87). -/
def gridRow8 : List (Nat × Shape) :=
  [(0x81, .byte .staIzx), (0x84, .byte .styZp), (0x85, .byte .staZp), (0x86, .byte .stxZp),
   (0x88, .implied .dey), (0x8A, .implied .txa), (0x8C, .word .styAbs), (0x8D, .word .staAbs),
   (0x8E, .word .stxAbs)]

/-- Row `9_` of the opcode grid (30_encoding.md R87). -/
def gridRow9 : List (Nat × Shape) :=
  [(0x90, .byte .bcc), (0x91, .byte .staIzy), (0x94, .byte .styZpx), (0x95, .byte .staZpx),
   (0x96, .byte .stxZpy), (0x98, .implied .tya), (0x99, .word .staAby), (0x9A, .implied .txs),
   (0x9D, .word .staAbx)]

/-- Row `A_` of the opcode grid (30_encoding.md R87). -/
def gridRowA : List (Nat × Shape) :=
  [(0xA0, .byte .ldyImm), (0xA1, .byte .ldaIzx), (0xA2, .byte .ldxImm), (0xA4, .byte .ldyZp),
   (0xA5, .byte .ldaZp), (0xA6, .byte .ldxZp), (0xA8, .implied .tay), (0xA9, .byte .ldaImm),
   (0xAA, .implied .tax), (0xAC, .word .ldyAbs), (0xAD, .word .ldaAbs), (0xAE, .word .ldxAbs)]

/-- Row `B_` of the opcode grid (30_encoding.md R87). -/
def gridRowB : List (Nat × Shape) :=
  [(0xB0, .byte .bcs), (0xB1, .byte .ldaIzy), (0xB4, .byte .ldyZpx), (0xB5, .byte .ldaZpx),
   (0xB6, .byte .ldxZpy), (0xB8, .implied .clv), (0xB9, .word .ldaAby), (0xBA, .implied .tsx),
   (0xBC, .word .ldyAbx), (0xBD, .word .ldaAbx), (0xBE, .word .ldxAby)]

/-- Row `C_` of the opcode grid (30_encoding.md R87). -/
def gridRowC : List (Nat × Shape) :=
  [(0xC0, .byte .cpyImm), (0xC1, .byte .cmpIzx), (0xC4, .byte .cpyZp), (0xC5, .byte .cmpZp),
   (0xC6, .byte .decZp), (0xC8, .implied .iny), (0xC9, .byte .cmpImm), (0xCA, .implied .dex),
   (0xCC, .word .cpyAbs), (0xCD, .word .cmpAbs), (0xCE, .word .decAbs)]

/-- Row `D_` of the opcode grid (30_encoding.md R87). -/
def gridRowD : List (Nat × Shape) :=
  [(0xD0, .byte .bne), (0xD1, .byte .cmpIzy), (0xD5, .byte .cmpZpx), (0xD6, .byte .decZpx),
   (0xD8, .implied .cld), (0xD9, .word .cmpAby), (0xDD, .word .cmpAbx), (0xDE, .word .decAbx)]

/-- Row `E_` of the opcode grid (30_encoding.md R87). -/
def gridRowE : List (Nat × Shape) :=
  [(0xE0, .byte .cpxImm), (0xE1, .byte .sbcIzx), (0xE4, .byte .cpxZp), (0xE5, .byte .sbcZp),
   (0xE6, .byte .incZp), (0xE8, .implied .inx), (0xE9, .byte .sbcImm), (0xEA, .implied .nop),
   (0xEC, .word .cpxAbs), (0xED, .word .sbcAbs), (0xEE, .word .incAbs)]

/-- Row `F_` of the opcode grid (30_encoding.md R87). -/
def gridRowF : List (Nat × Shape) :=
  [(0xF0, .byte .beq), (0xF1, .byte .sbcIzy), (0xF5, .byte .sbcZpx), (0xF6, .byte .incZpx),
   (0xF8, .implied .sed), (0xF9, .word .sbcAby), (0xFD, .word .sbcAbx), (0xFE, .word .incAbx)]

/-- The sixteen rows, by the opcode's high nibble. -/
def gridRow : Nat → List (Nat × Shape)
  | 0 => gridRow0
  | 1 => gridRow1
  | 2 => gridRow2
  | 3 => gridRow3
  | 4 => gridRow4
  | 5 => gridRow5
  | 6 => gridRow6
  | 7 => gridRow7
  | 8 => gridRow8
  | 9 => gridRow9
  | 10 => gridRowA
  | 11 => gridRowB
  | 12 => gridRowC
  | 13 => gridRowD
  | 14 => gridRowE
  | _ => gridRowF

/-- Looks an opcode up in one row of the grid. -/
def lookupOpcode (op : Nat) : List (Nat × Shape) → Option Shape
  | [] => none
  | (k, shape) :: rest => if op = k then some shape else lookupOpcode op rest

/-- The opcode map: what an opcode byte selects, `none` for the 105 bytes of 30_encoding.md R91. -/
def decodeOpcode (op : Byte) : Option Shape := lookupOpcode op.toNat (gridRow (op.toNat / 16))

/-- The opcode bytes with no instruction, as 30_encoding.md R91 lists them. -/
def unassignedOpcodes : List Nat :=
  [0x02, 0x03, 0x04, 0x07, 0x0B, 0x0C, 0x0F, 0x12, 0x13, 0x14, 0x17, 0x1A, 0x1B, 0x1C, 0x1F,
   0x22, 0x23, 0x27, 0x2B, 0x2F, 0x32, 0x33, 0x34, 0x37, 0x3A, 0x3B, 0x3C, 0x3F, 0x42, 0x43,
   0x44, 0x47, 0x4B, 0x4F, 0x52, 0x53, 0x54, 0x57, 0x5A, 0x5B, 0x5C, 0x5F, 0x62, 0x63, 0x64,
   0x67, 0x6B, 0x6F, 0x72, 0x73, 0x74, 0x77, 0x7A, 0x7B, 0x7C, 0x7F, 0x80, 0x82, 0x83, 0x87,
   0x89, 0x8B, 0x8F, 0x92, 0x93, 0x97, 0x9B, 0x9C, 0x9E, 0x9F, 0xA3, 0xA7, 0xAB, 0xAF, 0xB2,
   0xB3, 0xB7, 0xBB, 0xBF, 0xC2, 0xC3, 0xC7, 0xCB, 0xCF, 0xD2, 0xD3, 0xD4, 0xD7, 0xDA, 0xDB,
   0xDC, 0xDF, 0xE2, 0xE3, 0xE7, 0xEB, 0xEF, 0xF2, 0xF3, 0xF4, 0xF7, 0xFA, 0xFB, 0xFC, 0xFF]

/-- The answer of the decoder: an instruction and the bytes after it, or why there is none. -/
inductive Decoded where
  | instr (i : Instr) (rest : List Byte)
  | undefinedOpcode (op : Byte)   -- the opcode byte has no instruction (30_encoding.md R91)
  | truncated (op : Byte)         -- the bytes end before the instruction's last operand byte
  | noBytes                       -- there is not even an opcode byte
deriving DecidableEq, Repr

/-- The decoder, total on any bytes (30_encoding.md R70, R71, R73, R92; 20_memory.md R45). -/
def decode : List Byte → Decoded
  | [] => .noBytes
  | op :: bytes =>
    match decodeOpcode op, bytes with
    | none, _ => .undefinedOpcode op
    | some (.implied i), rest => .instr i rest
    | some (.byte f), b1 :: rest => .instr (f b1) rest
    | some (.word f), b1 :: b2 :: rest => .instr (f (joinBytes b2 b1)) rest
    | some _, _ => .truncated op

/-- The opcode byte of an instruction (the Encodings tables of the instruction rules). -/
def opcodeOf : Instr → Byte
  | .adcImm _ => 0x69
  | .adcZp _ => 0x65
  | .adcZpx _ => 0x75
  | .adcAbs _ => 0x6D
  | .adcAbx _ => 0x7D
  | .adcAby _ => 0x79
  | .adcIzx _ => 0x61
  | .adcIzy _ => 0x71
  | .cmpImm _ => 0xC9
  | .cmpZp _ => 0xC5
  | .cmpZpx _ => 0xD5
  | .cmpAbs _ => 0xCD
  | .cmpAbx _ => 0xDD
  | .cmpAby _ => 0xD9
  | .cmpIzx _ => 0xC1
  | .cmpIzy _ => 0xD1
  | .cpxImm _ => 0xE0
  | .cpxZp _ => 0xE4
  | .cpxAbs _ => 0xEC
  | .cpyImm _ => 0xC0
  | .cpyZp _ => 0xC4
  | .cpyAbs _ => 0xCC
  | .sbcImm _ => 0xE9
  | .sbcZp _ => 0xE5
  | .sbcZpx _ => 0xF5
  | .sbcAbs _ => 0xED
  | .sbcAbx _ => 0xFD
  | .sbcAby _ => 0xF9
  | .sbcIzx _ => 0xE1
  | .sbcIzy _ => 0xF1
  | .andImm _ => 0x29
  | .andZp _ => 0x25
  | .andZpx _ => 0x35
  | .andAbs _ => 0x2D
  | .andAbx _ => 0x3D
  | .andAby _ => 0x39
  | .andIzx _ => 0x21
  | .andIzy _ => 0x31
  | .bitZp _ => 0x24
  | .bitAbs _ => 0x2C
  | .eorImm _ => 0x49
  | .eorZp _ => 0x45
  | .eorZpx _ => 0x55
  | .eorAbs _ => 0x4D
  | .eorAbx _ => 0x5D
  | .eorAby _ => 0x59
  | .eorIzx _ => 0x41
  | .eorIzy _ => 0x51
  | .oraImm _ => 0x09
  | .oraZp _ => 0x05
  | .oraZpx _ => 0x15
  | .oraAbs _ => 0x0D
  | .oraAbx _ => 0x1D
  | .oraAby _ => 0x19
  | .oraIzx _ => 0x01
  | .oraIzy _ => 0x11
  | .aslAcc => 0x0A
  | .aslZp _ => 0x06
  | .aslZpx _ => 0x16
  | .aslAbs _ => 0x0E
  | .aslAbx _ => 0x1E
  | .lsrAcc => 0x4A
  | .lsrZp _ => 0x46
  | .lsrZpx _ => 0x56
  | .lsrAbs _ => 0x4E
  | .lsrAbx _ => 0x5E
  | .rolAcc => 0x2A
  | .rolZp _ => 0x26
  | .rolZpx _ => 0x36
  | .rolAbs _ => 0x2E
  | .rolAbx _ => 0x3E
  | .rorAcc => 0x6A
  | .rorZp _ => 0x66
  | .rorZpx _ => 0x76
  | .rorAbs _ => 0x6E
  | .rorAbx _ => 0x7E
  | .bcc _ => 0x90
  | .bcs _ => 0xB0
  | .beq _ => 0xF0
  | .bmi _ => 0x30
  | .bne _ => 0xD0
  | .bpl _ => 0x10
  | .bvc _ => 0x50
  | .bvs _ => 0x70
  | .brk => 0x00
  | .nop => 0xEA
  | .rti => 0x40
  | .clc => 0x18
  | .cld => 0xD8
  | .cli => 0x58
  | .clv => 0xB8
  | .sec => 0x38
  | .sed => 0xF8
  | .sei => 0x78
  | .decZp _ => 0xC6
  | .decZpx _ => 0xD6
  | .decAbs _ => 0xCE
  | .decAbx _ => 0xDE
  | .dex => 0xCA
  | .dey => 0x88
  | .incZp _ => 0xE6
  | .incZpx _ => 0xF6
  | .incAbs _ => 0xEE
  | .incAbx _ => 0xFE
  | .inx => 0xE8
  | .iny => 0xC8
  | .jmpAbs _ => 0x4C
  | .jmpInd _ => 0x6C
  | .jsr _ => 0x20
  | .rts => 0x60
  | .ldaImm _ => 0xA9
  | .ldaZp _ => 0xA5
  | .ldaZpx _ => 0xB5
  | .ldaAbs _ => 0xAD
  | .ldaAbx _ => 0xBD
  | .ldaAby _ => 0xB9
  | .ldaIzx _ => 0xA1
  | .ldaIzy _ => 0xB1
  | .ldxImm _ => 0xA2
  | .ldxZp _ => 0xA6
  | .ldxZpy _ => 0xB6
  | .ldxAbs _ => 0xAE
  | .ldxAby _ => 0xBE
  | .ldyImm _ => 0xA0
  | .ldyZp _ => 0xA4
  | .ldyZpx _ => 0xB4
  | .ldyAbs _ => 0xAC
  | .ldyAbx _ => 0xBC
  | .staZp _ => 0x85
  | .staZpx _ => 0x95
  | .staAbs _ => 0x8D
  | .staAbx _ => 0x9D
  | .staAby _ => 0x99
  | .staIzx _ => 0x81
  | .staIzy _ => 0x91
  | .stxZp _ => 0x86
  | .stxZpy _ => 0x96
  | .stxAbs _ => 0x8E
  | .styZp _ => 0x84
  | .styZpx _ => 0x94
  | .styAbs _ => 0x8C
  | .pha => 0x48
  | .php => 0x08
  | .pla => 0x68
  | .plp => 0x28
  | .tax => 0xAA
  | .tay => 0xA8
  | .tsx => 0xBA
  | .txa => 0x8A
  | .txs => 0x9A
  | .tya => 0x98

/-- The bytes of an operand, low byte first (30_encoding.md R70; 20_memory.md R45). -/
def encodeOperand : OperandField → List Byte
  | .none => []
  | .byte b => [b]
  | .word w => [lowByte w, highByte w]

/-- The encoder: the bytes of an instruction, in ascending address order (30_encoding.md R70; 20_memory.md R45). -/
def encode (i : Instr) : List Byte := opcodeOf i :: encodeOperand i.operand

/-- The `n` bytes of an instruction word whose bits are numbered as spec/opcode_table.json numbers them: bit 0 is the least
significant bit of the first byte. -/
def wordBytes (w : Nat) : Nat → List Byte
  | 0 => []
  | n + 1 => BitVec.ofNat 8 w :: wordBytes (w / 256) n

/-- The longest instruction, in bytes (30_encoding.md R70). -/
def maxInstrBytes : Nat := 3

/-- The bytes of the instruction whose low `nbits` bits are those of `w` and whose other bits are 0. -/
def tableWordBytes (nbits w : Nat) : List Byte := wordBytes (w % 2 ^ nbits) maxInstrBytes

/-- The instruction the decoder reads from a word of the table; none where it refuses. -/
def decodeTableWord (nbits w : Nat) : Option Instr :=
  match decode (tableWordBytes nbits w) with
  | .instr i _ => some i
  | _ => none

end Sys2Proof
end

