-- ==== Sys2Proof/Config.lean ====
section
/-! DEFINITION. What the spec fixes for this hardware or leaves open for it (00_scope.md R3), and the free values. -/

namespace Sys2Proof

/-- `DECIMAL_POLICY` (00_scope.md R3): what ADC and SBC mean while D = 1 (40_arithmetic.md R102). -/
inductive DecimalPolicy where
  | refuse   -- the step is refused
  | nmosBcd  -- the algorithm of 93_implementation_defined.md GK12
deriving DecidableEq, Repr, Inhabited

/-- The kinds of region of `MemMap` (20_memory.md R52). -/
inductive RegionKind where
  | ram
  | rom
  | device
  | unmapped
deriving DecidableEq, Repr, Inhabited

/-- One region of `MemMap` (20_memory.md R52): the addresses from `first` to `last`, both included. -/
structure Region where
  first : Nat
  last  : Nat
  kind  : RegionKind
deriving DecidableEq, Repr, Inhabited

/-- `reset_draw` (70_reset_and_hazards.md R241): the values a reset leaves unspecified. -/
structure ResetDraw where
  a  : Byte
  x  : Byte
  y  : Byte
  sp : Byte
  n  : Bool
  v  : Bool
  d  : Bool
  z  : Bool
  c  : Bool
deriving DecidableEq, Repr, Inhabited

/-- `JMP_INDIRECT_PAGE_WRAP` (00_scope.md R3): true for the original part (47_jump_subroutine.md R170). -/
def Config.jmpIndirectPageWrap : Bool := true

/-- What a byte of memory that is not listed reads as. DESIGN CHOICE (log 2, unsafe): the spec leaves RAM at power-on
unspecified (70_reset_and_hazards.md R242); the test vectors' convention is `$00`. -/
def Config.unlistedByte : Byte := 0

/-- FREE VALUE (log 5): the byte the `k`-th draw gives to a read of a `device` or `unmapped` address (20_memory.md R52). -/
opaque Config.openBusByte : Nat → Byte

/-- FREE VALUE (log 8): the record the `k`-th draw gives to a reset (70_reset_and_hazards.md R241). -/
opaque Config.resetDraw : Nat → ResetDraw

end Sys2Proof
end

