-- ==== Sys2Proof/Machine/State.lean ====
section
/-! DEFINITION. The state of the machine as plain data, its setters, why a step can stop, and the state after reset. -/

namespace Sys2Proof.Machine

/-- The six stored flags of the processor status P (10_state.md R14); B and bit 5 are not state (R23). -/
@[ext] structure Flags where
  n : Bool
  v : Bool
  d : Bool
  i : Bool
  z : Bool
  c : Bool
deriving DecidableEq, Repr

/-- Memory: address and byte pairs, addresses strictly rising, no byte equal to what an unlisted address reads as. -/
abbrev Memory := List Host.Cell

/-- What the outside world does at one boundary: the four pins of `Host` (60_exceptions.md R212) and the draw `take_k` (R215). -/
structure HostInput where
  reset    : Bool
  nmiEdge  : Bool
  irqLevel : Bool
  soEdge   : Bool
  take     : Bool
deriving DecidableEq, Repr

/-- Everything the spec gives the machine (10_state.md), the two parameters of 00_scope.md R3 that a platform or a modeller
chooses, and the model's own fields. -/
@[ext]
structure State where
  /-- A, the accumulator (10_state.md R10). -/
  a : Byte
  /-- X, an index register (R11). -/
  x : Byte
  /-- Y, an index register (R11). -/
  y : Byte
  /-- SP, the stack pointer (R12). -/
  sp : Byte
  /-- PC, the program counter (R13). -/
  pc : Addr
  /-- P, the processor status (R14). -/
  p : Flags
  /-- `nmi_pending` (R26): an NMI edge that has not been taken. -/
  nmiPending : Bool
  /-- `i_window` (R26): SEI or PLP raised I at the boundary before. -/
  iWindow : Bool
  /-- The 65536 bytes of memory, in canonical form (20_memory.md R40). -/
  mem : Memory
  /-- `MemMap` (20_memory.md R52): the regions, the first that holds an address deciding; RAM where none does. -/
  memMap : List Region
  /-- `DECIMAL_POLICY` (00_scope.md R3). -/
  decimalPolicy : DecimalPolicy
  /-- MODEL: the inputs of this boundary and the later ones; after the last the host is quiet but for `irqHeld` (log 6). -/
  host : List HostInput
  /-- MODEL: the level of `/IRQ` at every boundary after the last of `host`: `irq_level` from there on (60_exceptions.md R224, log 6). -/
  irqHeld : Bool
  /-- MODEL: what the other bus masters write to memory just before each CPU access to come, one entry an access, in order; nothing
  after the last (20_memory.md R58, log 27). -/
  bus : List (List (Addr × Byte))
  /-- MODEL: the writes to `device` addresses, oldest first (20_memory.md R52, log 5). -/
  deviceWrites : List (Addr × Byte)
  /-- MODEL: how many free values have been drawn (log 5, log 8). -/
  draws : Nat
deriving DecidableEq, Repr

/-- Why the machine could fault: there is no way. No instruction of this hardware can fault and no access traps
(60_exceptions.md R211), so the type has no constructor and nobody raises a fault. -/
inductive Fault where
deriving DecidableEq, Repr

/-- Why the model has no meaning for a step (00_scope.md R5: an outcome of the model, not an event of the chip). -/
inductive Refusal where
  /-- Raised by an arm of `exec` whose instruction has no meaning yet; no arm raises it. Safe: nothing can be proved past it. -/
  | notModelled (mnemonic : String)
  /-- Raised by `step` on one of the 105 opcode bytes with no instruction (30_encoding.md R91): the byte and its address. Safe. -/
  | undefinedOpcode (opcode : Byte) (pc : Addr)
  /-- Raised by ADC and SBC with D = 1 where `decimalPolicy` is `refuse` (40_arithmetic.md R102): the address. Safe. -/
  | decimalMode (pc : Addr)
deriving DecidableEq, Repr

def State.setA (s : State) (v : Byte) : State := { s with a := v }
def State.setX (s : State) (v : Byte) : State := { s with x := v }
def State.setY (s : State) (v : Byte) : State := { s with y := v }
def State.setSp (s : State) (v : Byte) : State := { s with sp := v }
def State.setPc (s : State) (v : Addr) : State := { s with pc := v }
def State.setP (s : State) (v : Flags) : State := { s with p := v }
def State.setNmiPending (s : State) (v : Bool) : State := { s with nmiPending := v }
def State.setIWindow (s : State) (v : Bool) : State := { s with iWindow := v }
def State.setMem (s : State) (v : Memory) : State := { s with mem := v }
def State.setMemMap (s : State) (v : List Region) : State := { s with memMap := v }
def State.setDecimalPolicy (s : State) (v : DecimalPolicy) : State := { s with decimalPolicy := v }
def State.setHost (s : State) (v : List HostInput) : State := { s with host := v }
def State.setIrqHeld (s : State) (v : Bool) : State := { s with irqHeld := v }
def State.setBus (s : State) (v : List (List (Addr × Byte))) : State := { s with bus := v }
def State.setDeviceWrites (s : State) (v : List (Addr × Byte)) : State := { s with deviceWrites := v }
def State.setDraws (s : State) (v : Nat) : State := { s with draws := v }

/-- The machine right after reset (10_state.md R28; 70_reset_and_hazards.md R240, R243): I = 1, no NMI pending, no window, and PC the
word at `$FFFC`, which is `$0000` in a memory with nothing listed. DESIGN CHOICE, unsafe: A, X, Y, SP, N, V, D, Z and C, which the spec
leaves unspecified, are 0 (log 1); nothing is listed in memory (log 2); the map is empty, so all addresses are RAM (log 4);
the host is quiet (log 6); no other bus master writes (log 27). `DECIMAL_POLICY` is `refuse`, its value for this hardware
(00_scope.md R3, log 7). -/
def State.reset : State where
  a := 0
  x := 0
  y := 0
  sp := 0
  pc := 0
  p := { n := false, v := false, d := false, i := true, z := false, c := false }
  nmiPending := false
  iWindow := false
  mem := []
  memMap := []
  decimalPolicy := .refuse
  host := []
  irqHeld := false
  bus := []
  deviceWrites := []
  draws := 0

end Sys2Proof.Machine
end

