-- ==== Sys2Proof/Machine/Flags.lean ====
section
/-! DEFINITION. Every flag computation: N and Z of a byte, the status byte as it is pushed and pulled, and the results and
flags of the arithmetic, compare and shift instructions. Sums are computed on integers and narrowed at the end. -/

namespace Sys2Proof.Machine

/-- `v[7]`, the sign bit of a byte (00_scope.md R4). -/
def bit7 (v : Byte) : Bool := v.getLsbD 7

/-- `SetNZ(v)` (10_state.md R19). -/
def Flags.setNZ (p : Flags) (v : Byte) : Flags := { p with n := bit7 v, z := v == 0 }

/-- A flag moved to bit `k` of a byte. -/
def flagBit (b : Bool) (k : Nat) : Byte := if b then BitVec.ofNat 8 (2 ^ k) else 0

/-- `PackP(b)`, the byte a push of the status stores (10_state.md R20, R15): N V 1 b D I Z C. -/
def Flags.pack (p : Flags) (b : Bool) : Byte :=
  flagBit p.n 7 ||| flagBit p.v 6 ||| flagBit true 5 ||| flagBit b 4 |||
    flagBit p.d 3 ||| flagBit p.i 2 ||| flagBit p.z 1 ||| flagBit p.c 0

/-- `UnpackP(v)`, the flags a pull of the status leaves; bits 5 and 4 are discarded (10_state.md R21). -/
def Flags.unpack (v : Byte) : Flags where
  n := v.getLsbD 7
  v := v.getLsbD 6
  d := v.getLsbD 3
  i := v.getLsbD 2
  z := v.getLsbD 1
  c := v.getLsbD 0

/-- What an addition or subtraction writes: the new A and the four flags. -/
structure AluResult where
  value : Byte
  n : Bool
  v : Bool
  z : Bool
  c : Bool
deriving DecidableEq, Repr

/-- The flags after an addition or subtraction: N, V, Z, C written, I and D kept (40_arithmetic.md R100, R101). -/
def Flags.setAlu (p : Flags) (r : AluResult) : Flags := { p with n := r.n, v := r.v, z := r.z, c := r.c }

/-- ADC with D = 0 (40_arithmetic.md R100): carry is the unsigned, V the signed overflow of `A + M + C`. -/
def addBinary (a m : Byte) (c : Bool) : AluResult :=
  let s := a.toNat + m.toNat + c.toNat
  let r := BitVec.ofNat 8 s
  { value := r
    n := bit7 r
    v := bit7 a == bit7 m && bit7 r != bit7 a
    z := r == 0
    c := decide (s > 255) }

/-- SBC with D = 0 (40_arithmetic.md R101): carry is "no borrow", V the signed overflow of `A - M - (1 - C)`. -/
def subBinary (a m : Byte) (c : Bool) : AluResult :=
  let d : Int := a.toNat - m.toNat - (1 - c.toNat)
  let r := BitVec.ofInt 8 d
  { value := r
    n := bit7 r
    v := bit7 a != bit7 m && bit7 r != bit7 a
    z := r == 0
    c := decide (d ≥ 0) }

/-- ADC with D = 1 under `nmosBcd` (93_implementation_defined.md GK12). UNVERIFIED, unsafe (log 7). -/
def addDecimal (a m : Byte) (c : Bool) : AluResult :=
  let bin := a.toNat + m.toNat + c.toNat
  let al := a.toNat % 16 + m.toNat % 16 + c.toNat
  let al := if al ≥ 10 then (al + 6) % 16 + 16 else al
  let s := a.toNat / 16 * 16 + m.toNat / 16 * 16 + al
  let t := if s ≥ 160 then s + 96 else s
  { value := BitVec.ofNat 8 t
    n := bit7 (BitVec.ofNat 8 s)
    v := bit7 a == bit7 m && bit7 (BitVec.ofNat 8 s) != bit7 a
    z := decide (bin % 256 = 0)
    c := decide (t ≥ 256) }

/-- SBC with D = 1 under `nmosBcd` (93_implementation_defined.md GK12): the flags are those of the binary difference.
UNVERIFIED, unsafe (log 7). -/
def subDecimal (a m : Byte) (c : Bool) : AluResult :=
  let al : Int := (a.toNat % 16 : Nat) - (m.toNat % 16 : Nat) + c.toNat - 1
  let al : Int := if al < 0 then (al - 6) % 16 - 16 else al
  let s : Int := (a.toNat / 16 * 16 : Nat) - (m.toNat / 16 * 16 : Nat) + al
  let t : Int := if s < 0 then s - 96 else s
  { subBinary a m c with value := BitVec.ofInt 8 t }

/-- The flags after CMP, CPX or CPY (40_arithmetic.md R103, R104, R105): C is `reg >= m` unsigned, N is bit 7 of the 8-bit difference. -/
def Flags.compare (p : Flags) (reg m : Byte) : Flags :=
  { p with c := decide (reg.toNat ≥ m.toNat), z := reg == m, n := bit7 (reg - m) }

/-- The flags after BIT (41_logical.md R111): Z from the AND, N and V from the operand. -/
def Flags.bitTest (p : Flags) (a m : Byte) : Flags :=
  { p with z := a &&& m == 0, n := m.getLsbD 7, v := m.getLsbD 6 }

/-- What a shift or rotate makes of its target: the result and the new carry. -/
structure ShiftResult where
  value : Byte
  c : Bool
deriving DecidableEq, Repr

/-- ASL (42_shift_rotate.md R121); the old carry is not used. -/
def shiftLeft (t : Byte) (_c : Bool) : ShiftResult := { value := t <<< 1, c := t.getLsbD 7 }

/-- LSR (42_shift_rotate.md R122); the old carry is not used. -/
def shiftRight (t : Byte) (_c : Bool) : ShiftResult := { value := t >>> 1, c := t.getLsbD 0 }

/-- ROL (42_shift_rotate.md R123): the old carry into bit 0. -/
def rotateLeft (t : Byte) (c : Bool) : ShiftResult := { value := t <<< 1 ||| flagBit c 0, c := t.getLsbD 7 }

/-- ROR (42_shift_rotate.md R124): the old carry into bit 7. -/
def rotateRight (t : Byte) (c : Bool) : ShiftResult := { value := t >>> 1 ||| flagBit c 7, c := t.getLsbD 0 }

/-- The flags after a shift or rotate: C, then N and Z of the result (42_shift_rotate.md R120). -/
def Flags.setShift (p : Flags) (r : ShiftResult) : Flags := { p.setNZ r.value with c := r.c }

end Sys2Proof.Machine
end

