-- ==== Sys2Proof/Machine/Ops.lean ====
section
/-! DEFINITION. The named operations over memory, the stack and PC, and the three sequences that are not instructions:
entering a handler, returning from one, and reset. -/

namespace Sys2Proof.Machine

/-! ### Memory as a list of cells -/

/-- The byte a memory holds at an address: the first cell listed for it, else `Config.unlistedByte`. -/
def Memory.byteAt : Memory → Nat → Byte
  | [], _ => Config.unlistedByte
  | (k, v) :: rest, a => if k = a then v else Memory.byteAt rest a

/-- A memory without the cells of one address. -/
def Memory.unlist : Memory → Nat → Memory
  | [], _ => []
  | (k, v) :: rest, a => if k = a then Memory.unlist rest a else (k, v) :: Memory.unlist rest a

/-- A cell put in its place in a memory that does not list its address. -/
def Memory.list : Memory → Nat → Byte → Memory
  | [], a, v => [(a, v)]
  | (k, w) :: rest, a, v => if a < k then (a, v) :: (k, w) :: rest else (k, w) :: Memory.list rest a v

/-- A memory with one byte written, kept in canonical form. -/
def Memory.setByte (m : Memory) (a : Nat) (v : Byte) : Memory :=
  if v = Config.unlistedByte then Memory.unlist m a else Memory.list (Memory.unlist m a) a v

/-- The canonical form from an address on: addresses rising and below 65536, no byte an unlisted address reads as. -/
def Memory.wfFrom : Nat → Memory → Bool
  | _, [] => true
  | lo, (k, v) :: rest => decide (lo ≤ k) && decide (k < 65536) && v != Config.unlistedByte && Memory.wfFrom (k + 1) rest

/-- The canonical form of a memory. -/
def Memory.wf (m : Memory) : Bool := Memory.wfFrom 0 m

/-! ### The address space (20_memory.md) -/

/-- The kind of the first region that holds an address; RAM where none does (20_memory.md R52, log 4). -/
def kindOf : List Region → Nat → RegionKind
  | [], _ => .ram
  | r :: rest, a => if r.first ≤ a ∧ a ≤ r.last then r.kind else kindOf rest a

/-- The kind of region an address lies in (20_memory.md R52). -/
def State.kindAt (s : State) (a : Addr) : RegionKind := kindOf s.memMap a.toNat

/-- The byte memory holds at an address, whatever the kind of region: what a `ram` or `rom` read gives (20_memory.md R52). -/
def State.peek (s : State) (a : Addr) : Byte := Memory.byteAt s.mem a.toNat

/-- The byte put into memory at an address, whatever the kind of region. -/
def State.poke (s : State) (a : Addr) (v : Byte) : State := s.setMem (Memory.setByte s.mem a.toNat v)

/-- Memory after a byte another bus master writes, which reaches RAM only (20_memory.md R58, R52). -/
def Memory.busWrite (map : List Region) (m : Memory) (w : Addr × Byte) : Memory :=
  match kindOf map w.1.toNat with
  | .ram => Memory.setByte m w.1.toNat w.2
  | .rom | .device | .unmapped => m

/-- The other bus masters' turn before one CPU access (20_memory.md R58): the next entry of `bus` is written to memory, in order. -/
def State.busTurn (s : State) : State :=
  { s with mem := (s.bus.headD []).foldl (Memory.busWrite s.memMap) s.mem, bus := s.bus.tail }

/-- The turns before `n` accesses. -/
def State.busTurns (s : State) : Nat → State
  | 0 => s
  | n + 1 => s.busTurn.busTurns n

/-- `MemRead(addr, 1)` (00_scope.md R5; 20_memory.md R43, R52, R58): the byte, and the state after the read, in which the other bus
masters have had their turn and a read of a `device` or `unmapped` address has used up one free value. -/
def State.memRead (s : State) (a : Addr) : Byte × State :=
  let t := s.busTurn
  match t.kindAt a with
  | .ram | .rom => (t.peek a, t)
  | .device | .unmapped => (Config.openBusByte t.draws, t.setDraws (t.draws + 1))

/-- `MemWrite(addr, 1, v)` (00_scope.md R5; 20_memory.md R43, R52, R58): after the other bus masters' turn RAM stores, a device's
write is recorded, the rest ignore it. -/
def State.memWrite (s : State) (a : Addr) (v : Byte) : State :=
  let t := s.busTurn
  match t.kindAt a with
  | .ram => t.poke a v
  | .device => t.setDeviceWrites (t.deviceWrites ++ [(a, v)])
  | .rom | .unmapped => t

/-- Two one-byte reads, low byte first, joined to a 16-bit value (20_memory.md R43, R44). -/
def State.readPair (s : State) (lowAt highAt : Addr) : Addr × State :=
  let lo := s.memRead lowAt
  let hi := lo.2.memRead highAt
  (joinBytes hi.1 lo.1, hi.2)

/-- `Read16(addr)` (20_memory.md R44): little-endian, the second address modulo 65536. -/
def State.read16 (s : State) (a : Addr) : Addr × State := s.readPair a (a + 1)

/-! ### PC and the stack -/

/-- `PC <- (PC + n) mod 65536`, the normal step past an instruction of `n` bytes (30_encoding.md R72; 10_state.md R13). -/
def State.advance (s : State) (n : Nat) : State := s.setPc (s.pc + BitVec.ofNat 16 n)

/-- `$0100 + SP`, the stack location a stack pointer addresses (20_memory.md R42). -/
def stackAddr (sp : Byte) : Addr := joinBytes 0x01 sp

/-- `Push8(v)` (20_memory.md R47): write at `$0100 + SP`, then SP down by one modulo 256. -/
def State.push8 (s : State) (v : Byte) : State :=
  let t := s.memWrite (stackAddr s.sp) v
  t.setSp (t.sp - 1)

/-- `Pull8()` (20_memory.md R48): SP up by one modulo 256, then read `$0100 + SP`. -/
def State.pull8 (s : State) : Byte × State :=
  let t := s.setSp (s.sp + 1)
  t.memRead (stackAddr t.sp)

/-- A 16-bit value pushed high byte first (20_memory.md R46). -/
def State.push16 (s : State) (w : Addr) : State := (s.push8 (highByte w)).push8 (lowByte w)

/-- A 16-bit value pulled low byte first (20_memory.md R46). -/
def State.pull16 (s : State) : Addr × State :=
  let lo := s.pull8
  let hi := lo.2.pull8
  (joinBytes hi.1 lo.1, hi.2)

/-! ### Registers with their flags -/

/-- A written, then `SetNZ(A)` (10_state.md R19). -/
def setANZ (v : Byte) (s : State) : State := (s.setA v).setP (s.p.setNZ v)

/-- X written, then `SetNZ(X)` (10_state.md R19). -/
def setXNZ (v : Byte) (s : State) : State := (s.setX v).setP (s.p.setNZ v)

/-- Y written, then `SetNZ(Y)` (10_state.md R19). -/
def setYNZ (v : Byte) (s : State) : State := (s.setY v).setP (s.p.setNZ v)

/-- The flags replaced by SEI or PLP, which open the interrupt window when they raise I from 0 to 1 (45_flag.md R156;
49_stack_transfer.md R193; 60_exceptions.md R215). -/
def State.openWindowFor (s : State) (p : Flags) : State :=
  let t := if !s.p.i && p.i then s.setIWindow true else s
  t.setP p

/-! ### Handlers and reset -/

/-- The vectors (20_memory.md R50). -/
def nmiVector : Addr := 0xFFFA
def resetVector : Addr := 0xFFFC
def irqVector : Addr := 0xFFFE

/-- Entering a handler, the sequence BRK, IRQ and NMI share (44_system.md R140; 60_exceptions.md R219): the address `ret` and the
status byte with bit 4 = `b` are pushed, I is set, and PC is loaded from the vector. -/
def State.enterHandler (s : State) (ret : Addr) (b : Bool) (vector : Addr) : State :=
  let t := s.push16 ret
  let u := t.push8 (t.p.pack b)
  let w := u.setP { u.p with i := true }
  let v := w.read16 vector
  v.2.setPc v.1

/-- `IntEntry(vec)` for IRQ and NMI (60_exceptions.md R219): the address pushed is PC, bit 4 of the status byte is 0. -/
def State.intEntry (s : State) (vector : Addr) : State := s.enterHandler s.pc false vector

/-- The return from a handler, RTI's effect (44_system.md R142; 60_exceptions.md R220): the flags, then PC, are pulled. -/
def State.returnFromHandler (s : State) : State :=
  let f := s.pull8
  let t := f.2.setP (Flags.unpack f.1)
  let r := t.pull16
  r.2.setPc r.1

/-- `Reset()` (70_reset_and_hazards.md R240, R241): the unspecified registers take the next draw, I is set, the hidden bits are
cleared, PC is loaded from `$FFFC`; memory is not written. -/
def State.resetSequence (s : State) : State :=
  let r := Config.resetDraw s.draws
  let t : State :=
    { s with
      a := r.a, x := r.x, y := r.y, sp := r.sp
      p := { n := r.n, v := r.v, d := r.d, i := true, z := r.z, c := r.c }
      nmiPending := false, iWindow := false, draws := s.draws + 1 }
  let v := t.read16 resetVector
  v.2.setPc v.1

end Sys2Proof.Machine
end

