-- ==== Sys2Proof/Machine/Boundary.lean ====
section
/-! DEFINITION. What happens at an instruction boundary before an instruction runs (60_exceptions.md R213), and the fetch of
the instruction (30_encoding.md R72). -/

namespace Sys2Proof.Machine

/-- The boundary input after the end of the tape (60_exceptions.md R212): nothing is asserted but `/IRQ`, whose level is then `irq`
for ever. Its `take` is true, so an NMI still pending, or an IRQ that I does not mask, is taken there (fairness, R224; log 6). -/
def afterTape (irq : Bool) : HostInput where
  reset := false
  nmiEdge := false
  irqLevel := irq
  soEdge := false
  take := true

/-- `Host(k)` at this boundary: the head of the tape, or what comes after its end (log 6). -/
def State.input (s : State) : HostInput :=
  match s.host with
  | [] => afterTape s.irqHeld
  | h :: _ => h

/-- The pins applied (60_exceptions.md R213): SO sets V, an NMI edge is latched, the window is read and cleared, and the tape
moves on. -/
def State.applyPins (s : State) (h : HostInput) : State :=
  let t := s.setP { s.p with v := s.p.v || h.soEdge }
  let t := t.setNmiPending (t.nmiPending || h.nmiEdge)
  let t := t.setIWindow false
  t.setHost t.host.tail

/-- What a boundary leads to: a reset or interrupt entry has been taken, or the instruction at PC is to run. -/
inductive Boundary where
  | entered (t : State)
  | run (t : State)
deriving DecidableEq, Repr

/-- The boundary of 60_exceptions.md R213, in its order of priority (R217): reset, NMI, IRQ, the instruction. -/
def State.boundary (s : State) : Boundary :=
  let h := s.input
  let t := s.applyPins h
  if h.reset then .entered t.resetSequence
  else if t.nmiPending && h.take then .entered ((t.setNmiPending false).intEntry nmiVector)
  else if h.irqLevel && (!t.p.i || s.iWindow) && h.take then .entered (t.intEntry irqVector)
  else .run t

/-- What a fetch gives: an instruction and the state after its byte reads, or an opcode byte with no instruction. -/
inductive Fetched where
  | instr (i : Instr) (t : State)
  | undefinedOpcode (op : Byte)
deriving DecidableEq, Repr

/-- The fetch of the instruction at PC (30_encoding.md R72): the opcode byte, then the operand bytes its row has, in ascending
address order modulo 65536. PC still holds the opcode's address. -/
def State.fetchInstr (s : State) : Fetched :=
  let opc := s.memRead s.pc
  match decodeOpcode opc.1 with
  | none => .undefinedOpcode opc.1
  | some (.implied i) => .instr i opc.2
  | some (.byte f) =>
    let b1 := opc.2.memRead (s.pc + 1)
    .instr (f b1.1) b1.2
  | some (.word f) =>
    let b1 := opc.2.memRead (s.pc + 1)
    let b2 := b1.2.memRead (s.pc + 2)
    .instr (f (joinBytes b2.1 b1.1)) b2.2

/-- Bytes put into memory from an address on, whatever the kind of region: a program loaded from outside (log 3). -/
def State.pokeAll (s : State) (a : Addr) : List Byte → State
  | [] => s
  | v :: rest => (s.poke a v).pokeAll (a + 1) rest

/-- An address made readable memory: the map as it is where it already is, else one RAM region before it. -/
def State.mapReadable (s : State) (a : Addr) : State :=
  match s.kindAt a with
  | .ram | .rom => s
  | .device | .unmapped => s.setMemMap (⟨a.toNat, a.toNat, .ram⟩ :: s.memMap)

/-- The state in which an instruction's bytes stand where `step` fetches next and nothing is taken or written before them: the
bytes at PC, their three addresses readable, the host and the bus quiet and no NMI pending (log 3). -/
def State.placeInstr (s : State) (bytes : List Byte) : State :=
  let t := ((s.mapReadable s.pc).mapReadable (s.pc + 1)).mapReadable (s.pc + 2)
  ((((t.pokeAll s.pc bytes).setHost []).setIrqHeld false).setBus []).setNmiPending false

end Sys2Proof.Machine
end

