-- ==== Sys2Proof/Machine/Operands.lean ====
section
/-! DEFINITION. Every operand form: how each addressing mode turns operand bytes into an effective address, an operand byte
or a target (30_encoding.md section 2). Resolving an operand makes exactly the reads the mode's rule names, in its order. -/

namespace Sys2Proof.Machine

/-- A memory operand: a mode with an effective address that names a data byte (30_encoding.md R78 to R83, R85, R86). -/
inductive Place where
  | zeroPage (b : Byte)
  | zeroPageX (b : Byte)
  | zeroPageY (b : Byte)
  | absolute (w : Addr)
  | absoluteX (w : Addr)
  | absoluteY (w : Addr)
  | indirectX (b : Byte)
  | indirectY (b : Byte)
deriving DecidableEq, Repr

/-- Where an instruction takes its operand byte `M` from: the instruction itself (30_encoding.md R76) or memory. -/
inductive Source where
  | immediate (b : Byte)
  | mem (place : Place)
deriving DecidableEq, Repr

/-- What a shift or rotate works on: A (30_encoding.md R75) or a memory byte (42_shift_rotate.md R120). -/
inductive Target where
  | accumulator
  | mem (place : Place)
deriving DecidableEq, Repr

/-- `$00:b`, an address of page zero (30_encoding.md R73). -/
def zeroPageAddr (b : Byte) : Addr := joinBytes 0 b

/-- `zext_16(b)` (00_scope.md R5). -/
def zext16 (b : Byte) : Addr := b.setWidth 16

/-- `sext_16(b)` (00_scope.md R5). -/
def sext16 (b : Byte) : Addr := b.signExtend 16

/-- The pointer a page-zero address holds, its high byte taken within page zero (30_encoding.md R85, R86). -/
def State.zeroPagePointer (s : State) (z : Byte) : Addr × State := s.readPair (zeroPageAddr z) (zeroPageAddr (z + 1))

/-- The effective address `ea` of a memory operand, and the state after the reads the mode itself makes. -/
def Place.resolve (place : Place) (s : State) : Addr × State :=
  match place with
  | .zeroPage b => (zeroPageAddr b, s)                    -- R78
  | .zeroPageX b => (zeroPageAddr (b + s.x), s)           -- R79
  | .zeroPageY b => (zeroPageAddr (b + s.y), s)           -- R80
  | .absolute w => (w, s)                                 -- R81
  | .absoluteX w => (w + zext16 s.x, s)                   -- R82
  | .absoluteY w => (w + zext16 s.y, s)                   -- R83
  | .indirectX b => s.zeroPagePointer (b + s.x)           -- R85
  | .indirectY b =>                                       -- R86
    let ptr := s.zeroPagePointer b
    (ptr.1 + zext16 ptr.2.y, ptr.2)

/-- The address JMP (Indirect) jumps to (30_encoding.md R84; 47_jump_subroutine.md R170): the high byte's address wraps within
its page on this hardware. -/
def State.jumpPointer (s : State) (w : Addr) : Addr × State :=
  if Config.jmpIndirectPageWrap then s.readPair w (joinBytes (highByte w) (lowByte w + 1))
  else s.readPair w (w + 1)

/-- The length of an instruction whose operand is a memory operand (30_encoding.md R70). -/
def Place.length : Place → Nat
  | .zeroPage _ | .zeroPageX _ | .zeroPageY _ | .indirectX _ | .indirectY _ => 2
  | .absolute _ | .absoluteX _ | .absoluteY _ => 3

/-- The length of an instruction with an operand byte (30_encoding.md R70). -/
def Source.length : Source → Nat
  | .immediate _ => 2
  | .mem place => place.length

/-- The operand byte `M` (00_scope.md R5), and the state after its reads. -/
def Source.fetch (src : Source) (s : State) : Byte × State :=
  match src with
  | .immediate b => (b, s)
  | .mem place =>
    let ea := place.resolve s
    ea.2.memRead ea.1

end Sys2Proof.Machine
end

