-- ==== Sys2Proof/Machine/Arithmetic.lean ====
section
/-! DEFINITION. Arithmetic and compare: ADC, SBC, CMP, CPX, CPY (40_arithmetic.md).
The shared operations, then one meaning per opcode. A meaning starts with PC at the opcode byte. -/

namespace Sys2Proof.Machine

/-- A replaced by `f A M C`, and N, V, Z, C with it (40_arithmetic.md R100, R101). -/
def accumulate (f : Byte → Byte → Bool → AluResult) (src : Source) (s : State) : State :=
  let m := src.fetch (s.advance src.length)
  let r := f m.2.a m.1 m.2.p.c
  (m.2.setA r.value).setP (m.2.p.setAlu r)

/-- ADC and SBC by D and `DECIMAL_POLICY` (40_arithmetic.md R100, R101, R102): binary while D = 0; while D = 1 the GK12 algorithm or a
refusal. -/
def addOrSubtract (binary decimal : Byte → Byte → Bool → AluResult) (src : Source) (s : State) : Host.Outcome State Fault Refusal :=
  match s.p.d, s.decimalPolicy with
  | false, _ => .next (accumulate binary src s)
  | true, .nmosBcd => .next (accumulate decimal src s)
  | true, .refuse => .refused (.decimalMode s.pc)

/-- ADC (40_arithmetic.md R100). -/
def opAdc (src : Source) (s : State) : Host.Outcome State Fault Refusal := addOrSubtract addBinary addDecimal src s

/-- SBC (40_arithmetic.md R101). -/
def opSbc (src : Source) (s : State) : Host.Outcome State Fault Refusal := addOrSubtract subBinary subDecimal src s

/-- A compare of a register with `M` (40_arithmetic.md R103 to R105): only C, Z, N change; D has no effect. -/
def compareWith (reg : State → Byte) (src : Source) (s : State) : Host.Outcome State Fault Refusal :=
  let m := src.fetch (s.advance src.length)
  .next (m.2.setP (m.2.p.compare (reg m.2) m.1))

/-- CMP (40_arithmetic.md R103). -/
def opCmp (src : Source) (s : State) : Host.Outcome State Fault Refusal := compareWith State.a src s

/-- CPX (40_arithmetic.md R104). -/
def opCpx (src : Source) (s : State) : Host.Outcome State Fault Refusal := compareWith State.x src s

/-- CPY (40_arithmetic.md R105). -/
def opCpy (src : Source) (s : State) : Host.Outcome State Fault Refusal := compareWith State.y src s

/-- `ADC #$12`, opcode `$69` (R100, mode R76). -/
def execAdcImm (b : Byte) (s : State) : Host.Outcome State Fault Refusal :=
  opAdc (.immediate b) s

/-- `ADC $12`, opcode `$65` (R100, mode R78). -/
def execAdcZp (b : Byte) (s : State) : Host.Outcome State Fault Refusal :=
  opAdc (.mem (.zeroPage b)) s

/-- `ADC $12,X`, opcode `$75` (R100, mode R79). -/
def execAdcZpx (b : Byte) (s : State) : Host.Outcome State Fault Refusal :=
  opAdc (.mem (.zeroPageX b)) s

/-- `ADC $1234`, opcode `$6D` (R100, mode R81). -/
def execAdcAbs (w : Addr) (s : State) : Host.Outcome State Fault Refusal :=
  opAdc (.mem (.absolute w)) s

/-- `ADC $1234,X`, opcode `$7D` (R100, mode R82). -/
def execAdcAbx (w : Addr) (s : State) : Host.Outcome State Fault Refusal :=
  opAdc (.mem (.absoluteX w)) s

/-- `ADC $1234,Y`, opcode `$79` (R100, mode R83). -/
def execAdcAby (w : Addr) (s : State) : Host.Outcome State Fault Refusal :=
  opAdc (.mem (.absoluteY w)) s

/-- `ADC ($12,X)`, opcode `$61` (R100, mode R85). -/
def execAdcIzx (b : Byte) (s : State) : Host.Outcome State Fault Refusal :=
  opAdc (.mem (.indirectX b)) s

/-- `ADC ($12),Y`, opcode `$71` (R100, mode R86). -/
def execAdcIzy (b : Byte) (s : State) : Host.Outcome State Fault Refusal :=
  opAdc (.mem (.indirectY b)) s

/-- `CMP #$12`, opcode `$C9` (R103, mode R76). -/
def execCmpImm (b : Byte) (s : State) : Host.Outcome State Fault Refusal :=
  opCmp (.immediate b) s

/-- `CMP $12`, opcode `$C5` (R103, mode R78). -/
def execCmpZp (b : Byte) (s : State) : Host.Outcome State Fault Refusal :=
  opCmp (.mem (.zeroPage b)) s

/-- `CMP $12,X`, opcode `$D5` (R103, mode R79). -/
def execCmpZpx (b : Byte) (s : State) : Host.Outcome State Fault Refusal :=
  opCmp (.mem (.zeroPageX b)) s

/-- `CMP $1234`, opcode `$CD` (R103, mode R81). -/
def execCmpAbs (w : Addr) (s : State) : Host.Outcome State Fault Refusal :=
  opCmp (.mem (.absolute w)) s

/-- `CMP $1234,X`, opcode `$DD` (R103, mode R82). -/
def execCmpAbx (w : Addr) (s : State) : Host.Outcome State Fault Refusal :=
  opCmp (.mem (.absoluteX w)) s

/-- `CMP $1234,Y`, opcode `$D9` (R103, mode R83). -/
def execCmpAby (w : Addr) (s : State) : Host.Outcome State Fault Refusal :=
  opCmp (.mem (.absoluteY w)) s

/-- `CMP ($12,X)`, opcode `$C1` (R103, mode R85). -/
def execCmpIzx (b : Byte) (s : State) : Host.Outcome State Fault Refusal :=
  opCmp (.mem (.indirectX b)) s

/-- `CMP ($12),Y`, opcode `$D1` (R103, mode R86). -/
def execCmpIzy (b : Byte) (s : State) : Host.Outcome State Fault Refusal :=
  opCmp (.mem (.indirectY b)) s

/-- `CPX #$12`, opcode `$E0` (R104, mode R76). -/
def execCpxImm (b : Byte) (s : State) : Host.Outcome State Fault Refusal :=
  opCpx (.immediate b) s

/-- `CPX $12`, opcode `$E4` (R104, mode R78). -/
def execCpxZp (b : Byte) (s : State) : Host.Outcome State Fault Refusal :=
  opCpx (.mem (.zeroPage b)) s

/-- `CPX $1234`, opcode `$EC` (R104, mode R81). -/
def execCpxAbs (w : Addr) (s : State) : Host.Outcome State Fault Refusal :=
  opCpx (.mem (.absolute w)) s

/-- `CPY #$12`, opcode `$C0` (R105, mode R76). -/
def execCpyImm (b : Byte) (s : State) : Host.Outcome State Fault Refusal :=
  opCpy (.immediate b) s

/-- `CPY $12`, opcode `$C4` (R105, mode R78). -/
def execCpyZp (b : Byte) (s : State) : Host.Outcome State Fault Refusal :=
  opCpy (.mem (.zeroPage b)) s

/-- `CPY $1234`, opcode `$CC` (R105, mode R81). -/
def execCpyAbs (w : Addr) (s : State) : Host.Outcome State Fault Refusal :=
  opCpy (.mem (.absolute w)) s

/-- `SBC #$12`, opcode `$E9` (R101, mode R76). -/
def execSbcImm (b : Byte) (s : State) : Host.Outcome State Fault Refusal :=
  opSbc (.immediate b) s

/-- `SBC $12`, opcode `$E5` (R101, mode R78). -/
def execSbcZp (b : Byte) (s : State) : Host.Outcome State Fault Refusal :=
  opSbc (.mem (.zeroPage b)) s

/-- `SBC $12,X`, opcode `$F5` (R101, mode R79). -/
def execSbcZpx (b : Byte) (s : State) : Host.Outcome State Fault Refusal :=
  opSbc (.mem (.zeroPageX b)) s

/-- `SBC $1234`, opcode `$ED` (R101, mode R81). -/
def execSbcAbs (w : Addr) (s : State) : Host.Outcome State Fault Refusal :=
  opSbc (.mem (.absolute w)) s

/-- `SBC $1234,X`, opcode `$FD` (R101, mode R82). -/
def execSbcAbx (w : Addr) (s : State) : Host.Outcome State Fault Refusal :=
  opSbc (.mem (.absoluteX w)) s

/-- `SBC $1234,Y`, opcode `$F9` (R101, mode R83). -/
def execSbcAby (w : Addr) (s : State) : Host.Outcome State Fault Refusal :=
  opSbc (.mem (.absoluteY w)) s

/-- `SBC ($12,X)`, opcode `$E1` (R101, mode R85). -/
def execSbcIzx (b : Byte) (s : State) : Host.Outcome State Fault Refusal :=
  opSbc (.mem (.indirectX b)) s

/-- `SBC ($12),Y`, opcode `$F1` (R101, mode R86). -/
def execSbcIzy (b : Byte) (s : State) : Host.Outcome State Fault Refusal :=
  opSbc (.mem (.indirectY b)) s

end Sys2Proof.Machine
end

