-- ==== Sys2Proof/Machine/Branch.lean ====
section
/-! DEFINITION. Branches: The eight conditional branches (43_branch.md).
The shared operations, then one meaning per opcode. A meaning starts with PC at the opcode byte. -/

namespace Sys2Proof.Machine

/-- The common branch rule (43_branch.md R130): the displacement counts from the next instruction. -/
def branchIf (taken : Bool) (d : Byte) (s : State) : Host.Outcome State Fault Refusal :=
  let t := s.advance 2
  .next (if taken then t.setPc (t.pc + sext16 d) else t)

/-- `BCC $12`, opcode `$90` (R131, mode R77). -/
def execBcc (d : Byte) (s : State) : Host.Outcome State Fault Refusal :=
  branchIf (!s.p.c) d s

/-- `BCS $12`, opcode `$B0` (R132, mode R77). -/
def execBcs (d : Byte) (s : State) : Host.Outcome State Fault Refusal :=
  branchIf s.p.c d s

/-- `BEQ $12`, opcode `$F0` (R133, mode R77). -/
def execBeq (d : Byte) (s : State) : Host.Outcome State Fault Refusal :=
  branchIf s.p.z d s

/-- `BMI $12`, opcode `$30` (R134, mode R77). -/
def execBmi (d : Byte) (s : State) : Host.Outcome State Fault Refusal :=
  branchIf s.p.n d s

/-- `BNE $12`, opcode `$D0` (R135, mode R77). -/
def execBne (d : Byte) (s : State) : Host.Outcome State Fault Refusal :=
  branchIf (!s.p.z) d s

/-- `BPL $12`, opcode `$10` (R136, mode R77). -/
def execBpl (d : Byte) (s : State) : Host.Outcome State Fault Refusal :=
  branchIf (!s.p.n) d s

/-- `BVC $12`, opcode `$50` (R137, mode R77). -/
def execBvc (d : Byte) (s : State) : Host.Outcome State Fault Refusal :=
  branchIf (!s.p.v) d s

/-- `BVS $12`, opcode `$70` (R138, mode R77). -/
def execBvs (d : Byte) (s : State) : Host.Outcome State Fault Refusal :=
  branchIf s.p.v d s

end Sys2Proof.Machine
end

