-- ==== Sys2Proof/Machine/FlagWrite.lean ====
section
/-! DEFINITION. Flags: CLC, CLD, CLI, CLV, SEC, SED, SEI (45_flag.md).
The shared operations, then one meaning per opcode. A meaning starts with PC at the opcode byte. -/

namespace Sys2Proof.Machine

/-- The flags replaced, PC at the next instruction, nothing else (45_flag.md). -/
def writeFlags (p : Flags) (s : State) : Host.Outcome State Fault Refusal := .next ((s.advance 1).setP p)

/-- `CLC`, opcode `$18` (R150). -/
def execClc (s : State) : Host.Outcome State Fault Refusal :=
  writeFlags { s.p with c := false } s

/-- `CLD`, opcode `$D8` (R151). -/
def execCld (s : State) : Host.Outcome State Fault Refusal :=
  writeFlags { s.p with d := false } s

/-- `CLI`, opcode `$58` (R152). -/
def execCli (s : State) : Host.Outcome State Fault Refusal :=
  writeFlags { s.p with i := false } s

/-- `CLV`, opcode `$B8` (R153). -/
def execClv (s : State) : Host.Outcome State Fault Refusal :=
  writeFlags { s.p with v := false } s

/-- `SEC`, opcode `$38` (R154). -/
def execSec (s : State) : Host.Outcome State Fault Refusal :=
  writeFlags { s.p with c := true } s

/-- `SED`, opcode `$F8` (R155). -/
def execSed (s : State) : Host.Outcome State Fault Refusal :=
  writeFlags { s.p with d := true } s

/-- `SEI`, opcode `$78` (R156). -/
def execSei (s : State) : Host.Outcome State Fault Refusal :=
  .next ((s.advance 1).openWindowFor { s.p with i := true })

end Sys2Proof.Machine
end

