-- ==== Sys2Proof/Machine/IncDec.lean ====
section
/-! DEFINITION. Increment and decrement: DEC, DEX, DEY, INC, INX, INY (46_incdec.md).
The shared operations, then one meaning per opcode. A meaning starts with PC at the opcode byte. -/

namespace Sys2Proof.Machine

/-- A memory byte replaced by `f` of it, N and Z with it (46_incdec.md R160, R163): one read and one write of one address. -/
def stepMemory (f : Byte → Byte) (place : Place) (s : State) : Host.Outcome State Fault Refusal :=
  let ea := place.resolve (s.advance place.length)
  let m := ea.2.memRead ea.1
  let t := m.2.memWrite ea.1 (f m.1)
  .next (t.setP (t.p.setNZ (f m.1)))

/-- DEC (46_incdec.md R160). -/
def opDec (place : Place) (s : State) : Host.Outcome State Fault Refusal := stepMemory (fun t => t - 1) place s

/-- INC (46_incdec.md R163). -/
def opInc (place : Place) (s : State) : Host.Outcome State Fault Refusal := stepMemory (fun t => t + 1) place s

/-- `DEC $12`, opcode `$C6` (R160, mode R78). -/
def execDecZp (b : Byte) (s : State) : Host.Outcome State Fault Refusal :=
  opDec (.zeroPage b) s

/-- `DEC $12,X`, opcode `$D6` (R160, mode R79). -/
def execDecZpx (b : Byte) (s : State) : Host.Outcome State Fault Refusal :=
  opDec (.zeroPageX b) s

/-- `DEC $1234`, opcode `$CE` (R160, mode R81). -/
def execDecAbs (w : Addr) (s : State) : Host.Outcome State Fault Refusal :=
  opDec (.absolute w) s

/-- `DEC $1234,X`, opcode `$DE` (R160, mode R82). -/
def execDecAbx (w : Addr) (s : State) : Host.Outcome State Fault Refusal :=
  opDec (.absoluteX w) s

/-- `DEX`, opcode `$CA` (R161). -/
def execDex (s : State) : Host.Outcome State Fault Refusal :=
  .next (setXNZ ((s.advance 1).x - 1) (s.advance 1))

/-- `DEY`, opcode `$88` (R162). -/
def execDey (s : State) : Host.Outcome State Fault Refusal :=
  .next (setYNZ ((s.advance 1).y - 1) (s.advance 1))

/-- `INC $12`, opcode `$E6` (R163, mode R78). -/
def execIncZp (b : Byte) (s : State) : Host.Outcome State Fault Refusal :=
  opInc (.zeroPage b) s

/-- `INC $12,X`, opcode `$F6` (R163, mode R79). -/
def execIncZpx (b : Byte) (s : State) : Host.Outcome State Fault Refusal :=
  opInc (.zeroPageX b) s

/-- `INC $1234`, opcode `$EE` (R163, mode R81). -/
def execIncAbs (w : Addr) (s : State) : Host.Outcome State Fault Refusal :=
  opInc (.absolute w) s

/-- `INC $1234,X`, opcode `$FE` (R163, mode R82). -/
def execIncAbx (w : Addr) (s : State) : Host.Outcome State Fault Refusal :=
  opInc (.absoluteX w) s

/-- `INX`, opcode `$E8` (R164). -/
def execInx (s : State) : Host.Outcome State Fault Refusal :=
  .next (setXNZ ((s.advance 1).x + 1) (s.advance 1))

/-- `INY`, opcode `$C8` (R165). -/
def execIny (s : State) : Host.Outcome State Fault Refusal :=
  .next (setYNZ ((s.advance 1).y + 1) (s.advance 1))

end Sys2Proof.Machine
end

