-- ==== Sys2Proof/Machine/Jump.lean ====
section
/-! DEFINITION. Jump and subroutine: JMP, JSR, RTS (47_jump_subroutine.md).
One meaning per opcode. A meaning starts with PC at the opcode byte. -/

namespace Sys2Proof.Machine

/-- `JMP $1234`, opcode `$4C` (R170, mode R81). -/
def execJmpAbs (w : Addr) (s : State) : Host.Outcome State Fault Refusal :=
  .next ((s.advance 3).setPc w)

/-- `JMP ($1234)`, opcode `$6C` (R170, mode R84). -/
def execJmpInd (w : Addr) (s : State) : Host.Outcome State Fault Refusal :=
  let target := (s.advance 3).jumpPointer w
  .next (target.2.setPc target.1)

/-- `JSR $1234`, opcode `$20` (R171, mode R81). -/
def execJsr (w : Addr) (s : State) : Host.Outcome State Fault Refusal :=
  let t := s.advance 3
  .next ((t.push16 (t.pc - 1)).setPc w)

/-- `RTS`, opcode `$60` (R172). -/
def execRts (s : State) : Host.Outcome State Fault Refusal :=
  let ret := (s.advance 1).pull16
  .next (ret.2.setPc (ret.1 + 1))

end Sys2Proof.Machine
end

