-- ==== Sys2Proof/Machine/LoadStore.lean ====
section
/-! DEFINITION. Load and store: LDA, LDX, LDY, STA, STX, STY (48_load_store.md).
The shared operations, then one meaning per opcode. A meaning starts with PC at the opcode byte. -/

namespace Sys2Proof.Machine

/-- A register loaded with `M`, N and Z with it (48_load_store.md R180 to R182). -/
def loadInto (put : Byte → State → State) (src : Source) (s : State) : Host.Outcome State Fault Refusal :=
  let m := src.fetch (s.advance src.length)
  .next (put m.1 m.2)

/-- LDA (48_load_store.md R180). -/
def opLda (src : Source) (s : State) : Host.Outcome State Fault Refusal := loadInto setANZ src s

/-- LDX (48_load_store.md R181). -/
def opLdx (src : Source) (s : State) : Host.Outcome State Fault Refusal := loadInto setXNZ src s

/-- LDY (48_load_store.md R182). -/
def opLdy (src : Source) (s : State) : Host.Outcome State Fault Refusal := loadInto setYNZ src s

/-- A register stored at the effective address; no flag changes (48_load_store.md R183 to R185). -/
def storeFrom (reg : State → Byte) (place : Place) (s : State) : Host.Outcome State Fault Refusal :=
  let ea := place.resolve (s.advance place.length)
  .next (ea.2.memWrite ea.1 (reg ea.2))

/-- STA (48_load_store.md R183). -/
def opSta (place : Place) (s : State) : Host.Outcome State Fault Refusal := storeFrom State.a place s

/-- STX (48_load_store.md R184). -/
def opStx (place : Place) (s : State) : Host.Outcome State Fault Refusal := storeFrom State.x place s

/-- STY (48_load_store.md R185). -/
def opSty (place : Place) (s : State) : Host.Outcome State Fault Refusal := storeFrom State.y place s

/-- `LDA #$12`, opcode `$A9` (R180, mode R76). -/
def execLdaImm (b : Byte) (s : State) : Host.Outcome State Fault Refusal :=
  opLda (.immediate b) s

/-- `LDA $12`, opcode `$A5` (R180, mode R78). -/
def execLdaZp (b : Byte) (s : State) : Host.Outcome State Fault Refusal :=
  opLda (.mem (.zeroPage b)) s

/-- `LDA $12,X`, opcode `$B5` (R180, mode R79). -/
def execLdaZpx (b : Byte) (s : State) : Host.Outcome State Fault Refusal :=
  opLda (.mem (.zeroPageX b)) s

/-- `LDA $1234`, opcode `$AD` (R180, mode R81). -/
def execLdaAbs (w : Addr) (s : State) : Host.Outcome State Fault Refusal :=
  opLda (.mem (.absolute w)) s

/-- `LDA $1234,X`, opcode `$BD` (R180, mode R82). -/
def execLdaAbx (w : Addr) (s : State) : Host.Outcome State Fault Refusal :=
  opLda (.mem (.absoluteX w)) s

/-- `LDA $1234,Y`, opcode `$B9` (R180, mode R83). -/
def execLdaAby (w : Addr) (s : State) : Host.Outcome State Fault Refusal :=
  opLda (.mem (.absoluteY w)) s

/-- `LDA ($12,X)`, opcode `$A1` (R180, mode R85). -/
def execLdaIzx (b : Byte) (s : State) : Host.Outcome State Fault Refusal :=
  opLda (.mem (.indirectX b)) s

/-- `LDA ($12),Y`, opcode `$B1` (R180, mode R86). -/
def execLdaIzy (b : Byte) (s : State) : Host.Outcome State Fault Refusal :=
  opLda (.mem (.indirectY b)) s

/-- `LDX #$12`, opcode `$A2` (R181, mode R76). -/
def execLdxImm (b : Byte) (s : State) : Host.Outcome State Fault Refusal :=
  opLdx (.immediate b) s

/-- `LDX $12`, opcode `$A6` (R181, mode R78). -/
def execLdxZp (b : Byte) (s : State) : Host.Outcome State Fault Refusal :=
  opLdx (.mem (.zeroPage b)) s

/-- `LDX $12,Y`, opcode `$B6` (R181, mode R80). -/
def execLdxZpy (b : Byte) (s : State) : Host.Outcome State Fault Refusal :=
  opLdx (.mem (.zeroPageY b)) s

/-- `LDX $1234`, opcode `$AE` (R181, mode R81). -/
def execLdxAbs (w : Addr) (s : State) : Host.Outcome State Fault Refusal :=
  opLdx (.mem (.absolute w)) s

/-- `LDX $1234,Y`, opcode `$BE` (R181, mode R83). -/
def execLdxAby (w : Addr) (s : State) : Host.Outcome State Fault Refusal :=
  opLdx (.mem (.absoluteY w)) s

/-- `LDY #$12`, opcode `$A0` (R182, mode R76). -/
def execLdyImm (b : Byte) (s : State) : Host.Outcome State Fault Refusal :=
  opLdy (.immediate b) s

/-- `LDY $12`, opcode `$A4` (R182, mode R78). -/
def execLdyZp (b : Byte) (s : State) : Host.Outcome State Fault Refusal :=
  opLdy (.mem (.zeroPage b)) s

/-- `LDY $12,X`, opcode `$B4` (R182, mode R79). -/
def execLdyZpx (b : Byte) (s : State) : Host.Outcome State Fault Refusal :=
  opLdy (.mem (.zeroPageX b)) s

/-- `LDY $1234`, opcode `$AC` (R182, mode R81). -/
def execLdyAbs (w : Addr) (s : State) : Host.Outcome State Fault Refusal :=
  opLdy (.mem (.absolute w)) s

/-- `LDY $1234,X`, opcode `$BC` (R182, mode R82). -/
def execLdyAbx (w : Addr) (s : State) : Host.Outcome State Fault Refusal :=
  opLdy (.mem (.absoluteX w)) s

/-- `STA $12`, opcode `$85` (R183, mode R78). -/
def execStaZp (b : Byte) (s : State) : Host.Outcome State Fault Refusal :=
  opSta (.zeroPage b) s

/-- `STA $12,X`, opcode `$95` (R183, mode R79). -/
def execStaZpx (b : Byte) (s : State) : Host.Outcome State Fault Refusal :=
  opSta (.zeroPageX b) s

/-- `STA $1234`, opcode `$8D` (R183, mode R81). -/
def execStaAbs (w : Addr) (s : State) : Host.Outcome State Fault Refusal :=
  opSta (.absolute w) s

/-- `STA $1234,X`, opcode `$9D` (R183, mode R82). -/
def execStaAbx (w : Addr) (s : State) : Host.Outcome State Fault Refusal :=
  opSta (.absoluteX w) s

/-- `STA $1234,Y`, opcode `$99` (R183, mode R83). -/
def execStaAby (w : Addr) (s : State) : Host.Outcome State Fault Refusal :=
  opSta (.absoluteY w) s

/-- `STA ($12,X)`, opcode `$81` (R183, mode R85). -/
def execStaIzx (b : Byte) (s : State) : Host.Outcome State Fault Refusal :=
  opSta (.indirectX b) s

/-- `STA ($12),Y`, opcode `$91` (R183, mode R86). -/
def execStaIzy (b : Byte) (s : State) : Host.Outcome State Fault Refusal :=
  opSta (.indirectY b) s

/-- `STX $12`, opcode `$86` (R184, mode R78). -/
def execStxZp (b : Byte) (s : State) : Host.Outcome State Fault Refusal :=
  opStx (.zeroPage b) s

/-- `STX $12,Y`, opcode `$96` (R184, mode R80). -/
def execStxZpy (b : Byte) (s : State) : Host.Outcome State Fault Refusal :=
  opStx (.zeroPageY b) s

/-- `STX $1234`, opcode `$8E` (R184, mode R81). -/
def execStxAbs (w : Addr) (s : State) : Host.Outcome State Fault Refusal :=
  opStx (.absolute w) s

/-- `STY $12`, opcode `$84` (R185, mode R78). -/
def execStyZp (b : Byte) (s : State) : Host.Outcome State Fault Refusal :=
  opSty (.zeroPage b) s

/-- `STY $12,X`, opcode `$94` (R185, mode R79). -/
def execStyZpx (b : Byte) (s : State) : Host.Outcome State Fault Refusal :=
  opSty (.zeroPageX b) s

/-- `STY $1234`, opcode `$8C` (R185, mode R81). -/
def execStyAbs (w : Addr) (s : State) : Host.Outcome State Fault Refusal :=
  opSty (.absolute w) s

end Sys2Proof.Machine
end

