-- ==== Sys2Proof/Machine/Logical.lean ====
section
/-! DEFINITION. Logical: AND, BIT, EOR, ORA (41_logical.md).
The shared operations, then one meaning per opcode. A meaning starts with PC at the opcode byte. -/

namespace Sys2Proof.Machine

/-- A replaced by `f A M`, N and Z with it (41_logical.md R110, R112, R113). -/
def combine (f : Byte → Byte → Byte) (src : Source) (s : State) : Host.Outcome State Fault Refusal :=
  let m := src.fetch (s.advance src.length)
  .next (setANZ (f m.2.a m.1) m.2)

/-- AND (41_logical.md R110). -/
def opAnd (src : Source) (s : State) : Host.Outcome State Fault Refusal := combine (fun a m => a &&& m) src s

/-- EOR (41_logical.md R112). -/
def opEor (src : Source) (s : State) : Host.Outcome State Fault Refusal := combine (fun a m => a ^^^ m) src s

/-- ORA (41_logical.md R113). -/
def opOra (src : Source) (s : State) : Host.Outcome State Fault Refusal := combine (fun a m => a ||| m) src s

/-- BIT (41_logical.md R111): only Z, N, V change. -/
def opBit (src : Source) (s : State) : Host.Outcome State Fault Refusal :=
  let m := src.fetch (s.advance src.length)
  .next (m.2.setP (m.2.p.bitTest m.2.a m.1))

/-- `AND #$12`, opcode `$29` (R110, mode R76). -/
def execAndImm (b : Byte) (s : State) : Host.Outcome State Fault Refusal :=
  opAnd (.immediate b) s

/-- `AND $12`, opcode `$25` (R110, mode R78). -/
def execAndZp (b : Byte) (s : State) : Host.Outcome State Fault Refusal :=
  opAnd (.mem (.zeroPage b)) s

/-- `AND $12,X`, opcode `$35` (R110, mode R79). -/
def execAndZpx (b : Byte) (s : State) : Host.Outcome State Fault Refusal :=
  opAnd (.mem (.zeroPageX b)) s

/-- `AND $1234`, opcode `$2D` (R110, mode R81). -/
def execAndAbs (w : Addr) (s : State) : Host.Outcome State Fault Refusal :=
  opAnd (.mem (.absolute w)) s

/-- `AND $1234,X`, opcode `$3D` (R110, mode R82). -/
def execAndAbx (w : Addr) (s : State) : Host.Outcome State Fault Refusal :=
  opAnd (.mem (.absoluteX w)) s

/-- `AND $1234,Y`, opcode `$39` (R110, mode R83). -/
def execAndAby (w : Addr) (s : State) : Host.Outcome State Fault Refusal :=
  opAnd (.mem (.absoluteY w)) s

/-- `AND ($12,X)`, opcode `$21` (R110, mode R85). -/
def execAndIzx (b : Byte) (s : State) : Host.Outcome State Fault Refusal :=
  opAnd (.mem (.indirectX b)) s

/-- `AND ($12),Y`, opcode `$31` (R110, mode R86). -/
def execAndIzy (b : Byte) (s : State) : Host.Outcome State Fault Refusal :=
  opAnd (.mem (.indirectY b)) s

/-- `BIT $12`, opcode `$24` (R111, mode R78). -/
def execBitZp (b : Byte) (s : State) : Host.Outcome State Fault Refusal :=
  opBit (.mem (.zeroPage b)) s

/-- `BIT $1234`, opcode `$2C` (R111, mode R81). -/
def execBitAbs (w : Addr) (s : State) : Host.Outcome State Fault Refusal :=
  opBit (.mem (.absolute w)) s

/-- `EOR #$12`, opcode `$49` (R112, mode R76). -/
def execEorImm (b : Byte) (s : State) : Host.Outcome State Fault Refusal :=
  opEor (.immediate b) s

/-- `EOR $12`, opcode `$45` (R112, mode R78). -/
def execEorZp (b : Byte) (s : State) : Host.Outcome State Fault Refusal :=
  opEor (.mem (.zeroPage b)) s

/-- `EOR $12,X`, opcode `$55` (R112, mode R79). -/
def execEorZpx (b : Byte) (s : State) : Host.Outcome State Fault Refusal :=
  opEor (.mem (.zeroPageX b)) s

/-- `EOR $1234`, opcode `$4D` (R112, mode R81). -/
def execEorAbs (w : Addr) (s : State) : Host.Outcome State Fault Refusal :=
  opEor (.mem (.absolute w)) s

/-- `EOR $1234,X`, opcode `$5D` (R112, mode R82). -/
def execEorAbx (w : Addr) (s : State) : Host.Outcome State Fault Refusal :=
  opEor (.mem (.absoluteX w)) s

/-- `EOR $1234,Y`, opcode `$59` (R112, mode R83). -/
def execEorAby (w : Addr) (s : State) : Host.Outcome State Fault Refusal :=
  opEor (.mem (.absoluteY w)) s

/-- `EOR ($12,X)`, opcode `$41` (R112, mode R85). -/
def execEorIzx (b : Byte) (s : State) : Host.Outcome State Fault Refusal :=
  opEor (.mem (.indirectX b)) s

/-- `EOR ($12),Y`, opcode `$51` (R112, mode R86). -/
def execEorIzy (b : Byte) (s : State) : Host.Outcome State Fault Refusal :=
  opEor (.mem (.indirectY b)) s

/-- `ORA #$12`, opcode `$09` (R113, mode R76). -/
def execOraImm (b : Byte) (s : State) : Host.Outcome State Fault Refusal :=
  opOra (.immediate b) s

/-- `ORA $12`, opcode `$05` (R113, mode R78). -/
def execOraZp (b : Byte) (s : State) : Host.Outcome State Fault Refusal :=
  opOra (.mem (.zeroPage b)) s

/-- `ORA $12,X`, opcode `$15` (R113, mode R79). -/
def execOraZpx (b : Byte) (s : State) : Host.Outcome State Fault Refusal :=
  opOra (.mem (.zeroPageX b)) s

/-- `ORA $1234`, opcode `$0D` (R113, mode R81). -/
def execOraAbs (w : Addr) (s : State) : Host.Outcome State Fault Refusal :=
  opOra (.mem (.absolute w)) s

/-- `ORA $1234,X`, opcode `$1D` (R113, mode R82). -/
def execOraAbx (w : Addr) (s : State) : Host.Outcome State Fault Refusal :=
  opOra (.mem (.absoluteX w)) s

/-- `ORA $1234,Y`, opcode `$19` (R113, mode R83). -/
def execOraAby (w : Addr) (s : State) : Host.Outcome State Fault Refusal :=
  opOra (.mem (.absoluteY w)) s

/-- `ORA ($12,X)`, opcode `$01` (R113, mode R85). -/
def execOraIzx (b : Byte) (s : State) : Host.Outcome State Fault Refusal :=
  opOra (.mem (.indirectX b)) s

/-- `ORA ($12),Y`, opcode `$11` (R113, mode R86). -/
def execOraIzy (b : Byte) (s : State) : Host.Outcome State Fault Refusal :=
  opOra (.mem (.indirectY b)) s

end Sys2Proof.Machine
end

