-- ==== Sys2Proof/Machine/Shift.lean ====
section
/-! DEFINITION. Shift and rotate: ASL, LSR, ROL, ROR (42_shift_rotate.md).
The shared operations, then one meaning per opcode. A meaning starts with PC at the opcode byte. -/

namespace Sys2Proof.Machine

/-- A shift or rotate of its target (42_shift_rotate.md R120): in memory one read and one write of one address, A unchanged. -/
def shiftTarget (f : Byte → Bool → ShiftResult) (target : Target) (s : State) : Host.Outcome State Fault Refusal :=
  match target with
  | .accumulator =>
    let t := s.advance 1
    let r := f t.a t.p.c
    .next ((t.setA r.value).setP (t.p.setShift r))
  | .mem place =>
    let ea := place.resolve (s.advance place.length)
    let m := ea.2.memRead ea.1
    let r := f m.1 m.2.p.c
    let t := m.2.memWrite ea.1 r.value
    .next (t.setP (t.p.setShift r))

/-- ASL (42_shift_rotate.md R121). -/
def opAsl (target : Target) (s : State) : Host.Outcome State Fault Refusal := shiftTarget shiftLeft target s

/-- LSR (42_shift_rotate.md R122). -/
def opLsr (target : Target) (s : State) : Host.Outcome State Fault Refusal := shiftTarget shiftRight target s

/-- ROL (42_shift_rotate.md R123). -/
def opRol (target : Target) (s : State) : Host.Outcome State Fault Refusal := shiftTarget rotateLeft target s

/-- ROR (42_shift_rotate.md R124). -/
def opRor (target : Target) (s : State) : Host.Outcome State Fault Refusal := shiftTarget rotateRight target s

/-- `ASL`, opcode `$0A` (R121, mode R75). -/
def execAslAcc (s : State) : Host.Outcome State Fault Refusal :=
  opAsl .accumulator s

/-- `ASL $12`, opcode `$06` (R121, mode R78). -/
def execAslZp (b : Byte) (s : State) : Host.Outcome State Fault Refusal :=
  opAsl (.mem (.zeroPage b)) s

/-- `ASL $12,X`, opcode `$16` (R121, mode R79). -/
def execAslZpx (b : Byte) (s : State) : Host.Outcome State Fault Refusal :=
  opAsl (.mem (.zeroPageX b)) s

/-- `ASL $1234`, opcode `$0E` (R121, mode R81). -/
def execAslAbs (w : Addr) (s : State) : Host.Outcome State Fault Refusal :=
  opAsl (.mem (.absolute w)) s

/-- `ASL $1234,X`, opcode `$1E` (R121, mode R82). -/
def execAslAbx (w : Addr) (s : State) : Host.Outcome State Fault Refusal :=
  opAsl (.mem (.absoluteX w)) s

/-- `LSR`, opcode `$4A` (R122, mode R75). -/
def execLsrAcc (s : State) : Host.Outcome State Fault Refusal :=
  opLsr .accumulator s

/-- `LSR $12`, opcode `$46` (R122, mode R78). -/
def execLsrZp (b : Byte) (s : State) : Host.Outcome State Fault Refusal :=
  opLsr (.mem (.zeroPage b)) s

/-- `LSR $12,X`, opcode `$56` (R122, mode R79). -/
def execLsrZpx (b : Byte) (s : State) : Host.Outcome State Fault Refusal :=
  opLsr (.mem (.zeroPageX b)) s

/-- `LSR $1234`, opcode `$4E` (R122, mode R81). -/
def execLsrAbs (w : Addr) (s : State) : Host.Outcome State Fault Refusal :=
  opLsr (.mem (.absolute w)) s

/-- `LSR $1234,X`, opcode `$5E` (R122, mode R82). -/
def execLsrAbx (w : Addr) (s : State) : Host.Outcome State Fault Refusal :=
  opLsr (.mem (.absoluteX w)) s

/-- `ROL`, opcode `$2A` (R123, mode R75). -/
def execRolAcc (s : State) : Host.Outcome State Fault Refusal :=
  opRol .accumulator s

/-- `ROL $12`, opcode `$26` (R123, mode R78). -/
def execRolZp (b : Byte) (s : State) : Host.Outcome State Fault Refusal :=
  opRol (.mem (.zeroPage b)) s

/-- `ROL $12,X`, opcode `$36` (R123, mode R79). -/
def execRolZpx (b : Byte) (s : State) : Host.Outcome State Fault Refusal :=
  opRol (.mem (.zeroPageX b)) s

/-- `ROL $1234`, opcode `$2E` (R123, mode R81). -/
def execRolAbs (w : Addr) (s : State) : Host.Outcome State Fault Refusal :=
  opRol (.mem (.absolute w)) s

/-- `ROL $1234,X`, opcode `$3E` (R123, mode R82). -/
def execRolAbx (w : Addr) (s : State) : Host.Outcome State Fault Refusal :=
  opRol (.mem (.absoluteX w)) s

/-- `ROR`, opcode `$6A` (R124, mode R75). -/
def execRorAcc (s : State) : Host.Outcome State Fault Refusal :=
  opRor .accumulator s

/-- `ROR $12`, opcode `$66` (R124, mode R78). -/
def execRorZp (b : Byte) (s : State) : Host.Outcome State Fault Refusal :=
  opRor (.mem (.zeroPage b)) s

/-- `ROR $12,X`, opcode `$76` (R124, mode R79). -/
def execRorZpx (b : Byte) (s : State) : Host.Outcome State Fault Refusal :=
  opRor (.mem (.zeroPageX b)) s

/-- `ROR $1234`, opcode `$6E` (R124, mode R81). -/
def execRorAbs (w : Addr) (s : State) : Host.Outcome State Fault Refusal :=
  opRor (.mem (.absolute w)) s

/-- `ROR $1234,X`, opcode `$7E` (R124, mode R82). -/
def execRorAbx (w : Addr) (s : State) : Host.Outcome State Fault Refusal :=
  opRor (.mem (.absoluteX w)) s

end Sys2Proof.Machine
end

