-- ==== Sys2Proof/Machine/StackTransfer.lean ====
section
/-! DEFINITION. Stack and transfer: PHA, PHP, PLA, PLP and the six register transfers (49_stack_transfer.md).
One meaning per opcode. A meaning starts with PC at the opcode byte. -/

namespace Sys2Proof.Machine

/-- `PHA`, opcode `$48` (R190). -/
def execPha (s : State) : Host.Outcome State Fault Refusal :=
  .next ((s.advance 1).push8 s.a)

/-- `PHP`, opcode `$08` (R191). -/
def execPhp (s : State) : Host.Outcome State Fault Refusal :=
  .next ((s.advance 1).push8 (s.p.pack true))

/-- `PLA`, opcode `$68` (R192). -/
def execPla (s : State) : Host.Outcome State Fault Refusal :=
  let m := (s.advance 1).pull8
  .next (setANZ m.1 m.2)

/-- `PLP`, opcode `$28` (R193). -/
def execPlp (s : State) : Host.Outcome State Fault Refusal :=
  let m := (s.advance 1).pull8
  .next (m.2.openWindowFor (Flags.unpack m.1))

/-- `TAX`, opcode `$AA` (R194). -/
def execTax (s : State) : Host.Outcome State Fault Refusal :=
  .next (setXNZ s.a (s.advance 1))

/-- `TAY`, opcode `$A8` (R195). -/
def execTay (s : State) : Host.Outcome State Fault Refusal :=
  .next (setYNZ s.a (s.advance 1))

/-- `TSX`, opcode `$BA` (R196). -/
def execTsx (s : State) : Host.Outcome State Fault Refusal :=
  .next (setXNZ s.sp (s.advance 1))

/-- `TXA`, opcode `$8A` (R197). -/
def execTxa (s : State) : Host.Outcome State Fault Refusal :=
  .next (setANZ s.x (s.advance 1))

/-- `TXS`, opcode `$9A` (R198). -/
def execTxs (s : State) : Host.Outcome State Fault Refusal :=
  .next ((s.advance 1).setSp s.x)

/-- `TYA`, opcode `$98` (R199). -/
def execTya (s : State) : Host.Outcome State Fault Refusal :=
  .next (setANZ s.y (s.advance 1))

end Sys2Proof.Machine
end

