-- ==== Sys2Proof/Machine/System.lean ====
section
/-! DEFINITION. System: BRK, NOP, RTI (44_system.md).
One meaning per opcode. A meaning starts with PC at the opcode byte. -/

namespace Sys2Proof.Machine

/-- `BRK`, opcode `$00` (R140). -/
def execBrk (s : State) : Host.Outcome State Fault Refusal :=
  .next ((s.advance 1).enterHandler (s.pc + 2) true irqVector)

/-- `NOP`, opcode `$EA` (R141). -/
def execNop (s : State) : Host.Outcome State Fault Refusal :=
  .next (s.advance 1)

/-- `RTI`, opcode `$40` (R142). -/
def execRti (s : State) : Host.Outcome State Fault Refusal :=
  .next (s.advance 1).returnFromHandler

end Sys2Proof.Machine
end

