-- ==== Sys2Proof/Machine/Step.lean ====
section
/-! DEFINITION. One step of the machine: one boundary of 60_exceptions.md R213. -/

namespace Sys2Proof.Machine

/-- A reset or interrupt entry is one step; otherwise the instruction at PC is fetched and run whole (60_exceptions.md R213;
30_encoding.md R72), and an opcode byte with no instruction is refused (30_encoding.md R91). -/
def step (s : State) : Host.Outcome State Fault Refusal :=
  match s.boundary with
  | .entered t => .next t
  | .run t =>
    match t.fetchInstr with
    | .instr i u => exec i u
    | .undefinedOpcode op => .refused (.undefinedOpcode op t.pc)

/-- The instruction whose low `nbits` bits are those of `w`, the rest 0, stored where `step` fetches next (log 3). -/
def State.withFetchWord (s : State) (nbits w : Nat) : State := s.placeInstr (tableWordBytes nbits w)

end Sys2Proof.Machine
end

