-- ==== Sys2Proof/Machine/Timing.lean ====
section
/-! DEFINITION. Cycle counts, as information: no rule reads one and `step` does not call this file (70_reset_and_hazards.md R253,
R254, R255). -/

namespace Sys2Proof.Machine

/-- The count before any "+": the leading number of the source's "Cycles" line (70_reset_and_hazards.md R253). -/
def baseCycles : Instr → Nat
  | .adcImm _ | .cmpImm _ | .cpxImm _ | .cpyImm _ | .sbcImm _ | .andImm _
  | .eorImm _ | .oraImm _ | .aslAcc | .lsrAcc | .rolAcc | .rorAcc
  | .bcc _ | .bcs _ | .beq _ | .bmi _ | .bne _ | .bpl _
  | .bvc _ | .bvs _ | .nop | .clc | .cld | .cli
  | .clv | .sec | .sed | .sei | .dex | .dey
  | .inx | .iny | .ldaImm _ | .ldxImm _ | .ldyImm _ | .tax
  | .tay | .tsx | .txa | .txs | .tya => 2
  | .adcZp _ | .cmpZp _ | .cpxZp _ | .cpyZp _ | .sbcZp _ | .andZp _
  | .bitZp _ | .eorZp _ | .oraZp _ | .jmpAbs _ | .ldaZp _ | .ldxZp _
  | .ldyZp _ | .staZp _ | .stxZp _ | .styZp _ | .pha | .php => 3
  | .adcZpx _ | .adcAbs _ | .adcAbx _ | .adcAby _ | .cmpZpx _ | .cmpAbs _
  | .cmpAbx _ | .cmpAby _ | .cpxAbs _ | .cpyAbs _ | .sbcZpx _ | .sbcAbs _
  | .sbcAbx _ | .sbcAby _ | .andZpx _ | .andAbs _ | .andAbx _ | .andAby _
  | .bitAbs _ | .eorZpx _ | .eorAbs _ | .eorAbx _ | .eorAby _ | .oraZpx _
  | .oraAbs _ | .oraAbx _ | .oraAby _ | .ldaZpx _ | .ldaAbs _ | .ldaAbx _
  | .ldaAby _ | .ldxZpy _ | .ldxAbs _ | .ldxAby _ | .ldyZpx _ | .ldyAbs _
  | .ldyAbx _ | .staZpx _ | .staAbs _ | .stxZpy _ | .stxAbs _ | .styZpx _
  | .styAbs _ | .pla | .plp => 4
  | .adcIzy _ | .cmpIzy _ | .sbcIzy _ | .andIzy _ | .eorIzy _ | .oraIzy _
  | .aslZp _ | .lsrZp _ | .rolZp _ | .rorZp _ | .decZp _ | .incZp _
  | .jmpInd _ | .ldaIzy _ | .staAbx _ | .staAby _ => 5
  | .adcIzx _ | .cmpIzx _ | .sbcIzx _ | .andIzx _ | .eorIzx _ | .oraIzx _
  | .aslZpx _ | .aslAbs _ | .lsrZpx _ | .lsrAbs _ | .rolZpx _ | .rolAbs _
  | .rorZpx _ | .rorAbs _ | .rti | .decZpx _ | .decAbs _ | .incZpx _
  | .incAbs _ | .jsr _ | .rts | .ldaIzx _ | .staIzx _ | .staIzy _ => 6
  | .aslAbx _ | .lsrAbx _ | .rolAbx _ | .rorAbx _ | .brk | .decAbx _
  | .incAbx _ => 7

/-- The memory operand of the 23 opcodes that take one cycle more when the page is crossed (70_reset_and_hazards.md R253). -/
def penaltyPlace : Instr → Option Place
  | .adcAbx w | .cmpAbx w | .sbcAbx w | .andAbx w | .eorAbx w | .oraAbx w | .ldaAbx w | .ldyAbx w => some (.absoluteX w)
  | .adcAby w | .cmpAby w | .sbcAby w | .andAby w | .eorAby w | .oraAby w | .ldaAby w | .ldxAby w => some (.absoluteY w)
  | .adcIzy b | .cmpIzy b | .sbcIzy b | .andIzy b | .eorIzy b | .oraIzy b | .ldaIzy b => some (.indirectY b)
  | _ => none

/-- "Page crossed" (70_reset_and_hazards.md R254): the indexed address has another high byte than the address before the index. -/
def Place.pageCrossed (place : Place) (s : State) : Bool :=
  match place with
  | .absoluteX w => highByte (w + zext16 s.x) != highByte w
  | .absoluteY w => highByte (w + zext16 s.y) != highByte w
  | .indirectY b =>
    let ptr := (s.zeroPagePointer b).1
    highByte (ptr + zext16 s.y) != highByte ptr
  | _ => false

/-- The condition and the displacement of a branch (43_branch.md R131 to R138). -/
def branchOf (s : State) : Instr → Option (Bool × Byte)
  | .bcc d => some (!s.p.c, d)
  | .bcs d => some (s.p.c, d)
  | .beq d => some (s.p.z, d)
  | .bmi d => some (s.p.n, d)
  | .bne d => some (!s.p.z, d)
  | .bpl d => some (!s.p.n, d)
  | .bvc d => some (!s.p.v, d)
  | .bvs d => some (s.p.v, d)
  | _ => none

/-- The cycles a branch adds (70_reset_and_hazards.md R253): none, one when taken, two when taken to another page. -/
def branchExtra (s : State) (taken : Bool) (d : Byte) : Nat :=
  let pcn := s.pc + 2
  if !taken then 0 else if highByte (pcn + sext16 d) = highByte pcn then 1 else 2

/-- The clock cycles an instruction takes from a state whose PC is at its opcode (70_reset_and_hazards.md R253). -/
def cyclesOf (i : Instr) (s : State) : Nat :=
  let crossed :=
    match penaltyPlace i with
    | some place => if place.pageCrossed s then 1 else 0
    | none => 0
  let branch :=
    match branchOf s i with
    | some (taken, d) => branchExtra s taken d
    | none => 0
  baseCycles i + crossed + branch

end Sys2Proof.Machine
end

