-- ==== Sys2Proof/Safety.lean ====
section
/-! DEFINITION. The terms claims use: what a run is and what counts as a safe one, and what a sequence of memory accesses reads
and leaves when other bus masters write between them. -/

namespace Sys2Proof.Machine

/-- One state follows another in one step. -/
def State.StepsTo (s t : State) : Prop := step s = .next t

/-- A state is reached from another by some number of steps. -/
inductive Reaches : State → State → Prop where
  | refl (s : State) : Reaches s s
  | tail {s t u : State} (h : Reaches s t) (h' : t.StepsTo u) : Reaches s u

/-- The step at a state has a meaning: it is not refused (no step can fault, 60_exceptions.md R211). -/
def State.Completes (s : State) : Prop := ∃ t, s.StepsTo t

/-- The decimal refusal cannot happen at a state: D is clear or the policy gives decimal arithmetic a meaning (40_arithmetic.md R102). -/
def State.decimalDefined (s : State) : Bool := !s.p.d || s.decimalPolicy == .nmosBcd

/-- An address that holds memory, RAM or ROM (20_memory.md R52): a read gives `peek`. -/
def State.readable (s : State) (a : Addr) : Bool :=
  match s.kindAt a with
  | .ram | .rom => true
  | .device | .unmapped => false

/-- One CPU access to memory: `none` is a read, `some (a, v)` a write of `v` at `a`. -/
abbrev Access := Option (Addr × Byte)

/-- A sequence of `n` reads. -/
def reads (n : Nat) : List Access := List.replicate n none

/-- How many reads an addressing mode makes to find its effective address: the two bytes of a pointer (30_encoding.md R85, R86) or none. -/
def Place.pointerReads : Place → Nat
  | .indirectX _ | .indirectY _ => 2
  | .zeroPage _ | .zeroPageX _ | .zeroPageY _ | .absolute _ | .absoluteX _ | .absoluteY _ => 0

/-- How many reads an operand byte takes (20_memory.md R53): none of an immediate, the pointer's and one more of a memory operand. -/
def Source.reads : Source → Nat
  | .immediate _ => 0
  | .mem place => place.pointerReads + 1

/-- The writes made during a sequence of accesses, oldest first (20_memory.md R54, R58): before each access those of the other bus
masters, then the access's own. -/
def traffic : List (List (Addr × Byte)) → List Access → List (Addr × Byte)
  | _, [] => []
  | bus, access :: rest => bus.headD [] ++ access.toList ++ traffic bus.tail rest

/-- The byte an address holds after a sequence of accesses (20_memory.md R52, R54, R58): in RAM the byte last written there, if any,
else the byte it held. -/
def State.byteAfter (s : State) (accesses : List Access) (c : Addr) : Byte :=
  if s.kindAt c = .ram then
    (traffic s.bus accesses).foldl (fun held w => if w.1 = c then w.2 else held) (s.peek c)
  else s.peek c

/-- The byte a read gives (20_memory.md R52, R54): what memory holds after the accesses `before` and the bus masters' turn, or, at
a `device` or `unmapped` address, the free byte of draw `d` (log 5). -/
def State.byteRead (s : State) (before : List Access) (d : Nat) (c : Addr) : Byte :=
  if s.readable c = true then s.byteAfter (before ++ [none]) c else Config.openBusByte d

/-- How many free values a read uses up (log 5). -/
def State.drawsFor (s : State) (c : Addr) : Nat := if s.readable c = true then 0 else 1

/-- The number two reads give, the low byte first (20_memory.md R43, R44). -/
def State.wordRead (s : State) (before : List Access) (d : Nat) (lo hi : Addr) : Nat :=
  (s.byteRead (before ++ [none]) (d + s.drawsFor lo) hi).toNat * 256 + (s.byteRead before d lo).toNat

/-- What a sequence of accesses leaves (20_memory.md R52, R58): each byte of memory, the log of the writes to `device` addresses, and
the bus masters' turns still to come. -/
def State.After (s t : State) (accesses : List Access) : Prop :=
  (∀ c, t.peek c = s.byteAfter accesses c) ∧
  t.deviceWrites = s.deviceWrites ++ (accesses.filterMap id).filter (fun w => s.kindAt w.1 == .device) ∧
  t.bus = s.bus.drop accesses.length

/-- No other bus master writes an address from here on. -/
def State.Untouched (s : State) (c : Addr) : Prop := ∀ turn ∈ s.bus, ∀ w ∈ turn, w.1 ≠ c

/-- The invariant of the machine: memory is in canonical form. -/
def State.wf (s : State) : Bool := Memory.wf s.mem

/-- `HALT`, convention (a) (70_reset_and_hazards.md R256): under the quiet host, and with no other bus
master, the instruction at PC leaves PC and all other state unchanged. -/
def State.haltedBySelfLoop (s : State) : Prop := s.host = [] ∧ s.irqHeld = false ∧ s.bus = [] ∧ s.StepsTo s

/-- `HALT`, convention (b) (70_reset_and_hazards.md R256): PC is at an address the harness names. -/
def State.haltedAt (s : State) (a : Addr) : Bool := s.pc == a

/-- A run is safe when every state it reaches completes. -/
def State.RunsSafely (s : State) : Prop := ∀ t, Reaches s t → t.Completes

end Sys2Proof.Machine
end

