-- ==== Sys2Proof/Certificates/Slice0/Obligations.lean ====
section
/-! DEFINITION. The statements for the provers. Statements about an instruction are made of forms: the bytes that encode it and,
for every state it starts from, the whole next state. Where the next state is said as a record update of the start, every
field not named is unchanged (the frame). Other bus masters may write memory before any access (20_memory.md R58): `busTurns n` is
memory after their next `n` turns, `After` what a sequence of accesses leaves between them, and with `bus = []` there are none.
The draw counter `draws`, the model's own field, is left free. -/

namespace Sys2Proof.Claims

open Sys2Proof.Machine

/-- The operand byte `M` an operand names in a state (00_scope.md R5). -/
def operand (src : Source) (s : State) : Byte := (src.fetch s).1

/-- The effective address a memory operand names in a state (30_encoding.md R78 to R86). -/
def address (place : Place) (s : State) : Addr := (place.resolve s).1

/-- The address after an instruction's bytes (30_encoding.md R72). -/
def past (s : State) (bytes : List Byte) : Addr := s.pc + BitVec.ofNat 16 bytes.length

/-- N is bit 7 of a byte and Z says that it is 0; the other flags stay (10_state.md R19). -/
def nz (p : Flags) (v : Byte) : Flags := { p with n := v.getLsbD 7, z := decide (v.toNat = 0) }

/-- An instruction is encoded by `bytes`, makes no access of its own and, from every state `s`, answers the next state `post s`. -/
def Sets (i : Instr) (bytes : List Byte) (post : State → State) : Prop :=
  encode i = bytes ∧ ∀ s, exec i s = .next (post s)

/-- An instruction is encoded by `bytes`, makes `n` reads and no write and, from every state `s`, answers the next state `post s`, in
which memory has changed by the other bus masters' turns alone. -/
def Leaves (i : Instr) (bytes : List Byte) (n : Nat) (post : State → State) : Prop :=
  encode i = bytes ∧ ∀ s, ∃ k, exec i s =
    .next { post s with mem := (s.busTurns n).mem, bus := s.bus.drop n, draws := k }

/-- Nothing but memory, the bus masters' turns, the device log and the draw counter differs from `u`. -/
def RegistersOf (u t : State) : Prop :=
  t = { u with mem := t.mem, bus := t.bus, deviceWrites := t.deviceWrites, draws := t.draws }

/-- An instruction is encoded by `bytes` and, from every state `s`, answers a next state in which memory is as the accesses
`accesses s` leave it and every register is that of `post s`. -/
def Stores (i : Instr) (bytes : List Byte) (accesses : State → List Access) (post : State → State) : Prop :=
  encode i = bytes ∧ ∀ s, ∃ t, exec i s = .next t ∧ s.After t (accesses s) ∧ RegistersOf (post s) t

/-- A load of A (48_load_store.md R180). -/
def LoadsA (i : Instr) (bytes : List Byte) (src : Source) : Prop :=
  Leaves i bytes src.reads fun s => { s with a := operand src s, p := nz s.p (operand src s), pc := past s bytes }

/-- A load of X (48_load_store.md R181). -/
def LoadsX (i : Instr) (bytes : List Byte) (src : Source) : Prop :=
  Leaves i bytes src.reads fun s => { s with x := operand src s, p := nz s.p (operand src s), pc := past s bytes }

/-- A load of Y (48_load_store.md R182). -/
def LoadsY (i : Instr) (bytes : List Byte) (src : Source) : Prop :=
  Leaves i bytes src.reads fun s => { s with y := operand src s, p := nz s.p (operand src s), pc := past s bytes }

/-- A store of a register: the mode's own reads, then one write, at the effective address (48_load_store.md R183 to R185). -/
def StoresReg (i : Instr) (bytes : List Byte) (place : Place) (reg : State → Byte) : Prop :=
  Stores i bytes (fun s => reads place.pointerReads ++ [some (address place s, reg s)]) fun s => { s with pc := past s bytes }

/-- ADC with D = 0 (40_arithmetic.md R100): the sum on integers, C its unsigned and V its signed overflow. -/
def AddsBinary (i : Instr) (bytes : List Byte) (src : Source) : Prop :=
  encode i = bytes ∧ ∀ s : State, s.p.d = false → ∃ k,
    let sum := s.a.toNat + (operand src s).toNat + s.p.c.toNat
    let signed := s.a.toInt + (operand src s).toInt + s.p.c.toNat
    exec i s = .next { s with
      a := BitVec.ofNat 8 sum
      p := { s.p with
        n := decide (128 ≤ sum % 256), v := decide (signed < -128 ∨ 127 < signed)
        z := decide (sum % 256 = 0), c := decide (255 < sum) }
      pc := past s bytes, mem := (s.busTurns src.reads).mem, bus := s.bus.drop src.reads, draws := k }

/-- SBC with D = 0 (40_arithmetic.md R101): the difference on integers, C says that there is no borrow, V is its signed overflow. -/
def SubtractsBinary (i : Instr) (bytes : List Byte) (src : Source) : Prop :=
  encode i = bytes ∧ ∀ s : State, s.p.d = false → ∃ k,
    let diff : Int := s.a.toNat - (operand src s).toNat - (1 - s.p.c.toNat)
    let signed : Int := s.a.toInt - (operand src s).toInt - (1 - s.p.c.toNat)
    exec i s = .next { s with
      a := BitVec.ofInt 8 diff
      p := { s.p with
        n := decide (128 ≤ diff % 256), v := decide (signed < -128 ∨ 127 < signed)
        z := decide (diff % 256 = 0), c := decide (0 ≤ diff) }
      pc := past s bytes, mem := (s.busTurns src.reads).mem, bus := s.bus.drop src.reads, draws := k }

/-- ADC with D = 1 where the policy is `nmosBcd` (93_implementation_defined.md GK12, log 7), on integers: the low digits are added and
adjusted, N and V are of the sum before its high digit is adjusted, Z is of the binary sum, C and A of the adjusted sum. -/
def AddsDecimal (i : Instr) (bytes : List Byte) (src : Source) : Prop :=
  encode i = bytes ∧ ∀ s : State, s.p.d = true → s.decimalPolicy = .nmosBcd → ∃ k,
    let a := s.a.toNat
    let m := (operand src s).toNat
    let c := s.p.c.toNat
    let low := a % 16 + m % 16 + c
    let sum := a / 16 * 16 + m / 16 * 16 + if 10 ≤ low then (low + 6) % 16 + 16 else low
    let adjusted := if 160 ≤ sum then sum + 96 else sum
    exec i s = .next { s with
      a := BitVec.ofNat 8 adjusted
      p := { s.p with
        n := decide (128 ≤ sum % 256), v := decide ((128 ≤ a ↔ 128 ≤ m) ∧ ¬ (128 ≤ sum % 256 ↔ 128 ≤ a))
        z := decide ((a + m + c) % 256 = 0), c := decide (256 ≤ adjusted) }
      pc := past s bytes, mem := (s.busTurns src.reads).mem, bus := s.bus.drop src.reads, draws := k }

/-- SBC with D = 1 where the policy is `nmosBcd` (93_implementation_defined.md GK12, log 7), on integers: the low digits are subtracted
and adjusted, then the whole; the flags are those of the binary difference, as in `SubtractsBinary`. -/
def SubtractsDecimal (i : Instr) (bytes : List Byte) (src : Source) : Prop :=
  encode i = bytes ∧ ∀ s : State, s.p.d = true → s.decimalPolicy = .nmosBcd → ∃ k,
    let a : Int := s.a.toNat
    let m : Int := (operand src s).toNat
    let c : Int := s.p.c.toNat
    let diff : Int := a - m - (1 - c)
    let signed : Int := s.a.toInt - (operand src s).toInt - (1 - c)
    let low := a % 16 - m % 16 + c - 1
    let total := a / 16 * 16 - m / 16 * 16 + if low < 0 then (low - 6) % 16 - 16 else low
    exec i s = .next { s with
      a := BitVec.ofInt 8 (if total < 0 then total - 96 else total)
      p := { s.p with
        n := decide (128 ≤ diff % 256), v := decide (signed < -128 ∨ 127 < signed)
        z := decide (diff % 256 = 0), c := decide (0 ≤ diff) }
      pc := past s bytes, mem := (s.busTurns src.reads).mem, bus := s.bus.drop src.reads, draws := k }

/-- A byte whose two nibbles are decimal digits. -/
def isBcd (v : Byte) : Prop := v.toNat / 16 < 10 ∧ v.toNat % 16 < 10

/-- The number two decimal digits stand for. -/
def bcdValue (v : Byte) : Nat := v.toNat / 16 * 10 + v.toNat % 16

/-- A compare (40_arithmetic.md R103 to R105): C is `reg >= M` on unsigned numbers, Z equality, N bit 7 of the difference modulo 256. -/
def Compares (i : Instr) (bytes : List Byte) (src : Source) (reg : State → Byte) : Prop :=
  Leaves i bytes src.reads fun s => { s with
    p := { s.p with
      c := decide ((operand src s).toNat ≤ (reg s).toNat), z := decide (reg s = operand src s)
      n := decide (128 ≤ (((reg s).toNat : Int) - (operand src s).toNat) % 256) }
    pc := past s bytes }

/-- AND, EOR, ORA (41_logical.md R110, R112, R113): A combined with `M`, N and Z of the new A. -/
def Combines (i : Instr) (bytes : List Byte) (src : Source) (f : Byte → Byte → Byte) : Prop :=
  Leaves i bytes src.reads fun s => { s with
    a := f s.a (operand src s), p := nz s.p (f s.a (operand src s)), pc := past s bytes }

/-- BIT (41_logical.md R111). -/
def TestsBits (i : Instr) (bytes : List Byte) (src : Source) : Prop :=
  Leaves i bytes src.reads fun s => { s with
    p := { s.p with
      z := decide (s.a &&& operand src s = 0), n := (operand src s).getLsbD 7, v := (operand src s).getLsbD 6 }
    pc := past s bytes }

/-- A shift or rotate of A (42_shift_rotate.md R120): `f` gives the result and the new C from the old byte and the old C. -/
def ShiftsA (i : Instr) (bytes : List Byte) (f : Byte → Bool → Byte × Bool) : Prop :=
  Sets i bytes fun s => { s with
    a := (f s.a s.p.c).1, p := { nz s.p (f s.a s.p.c).1 with c := (f s.a s.p.c).2 }, pc := past s bytes }

/-- A shift or rotate of a memory byte (42_shift_rotate.md R120): one read and one write, at the effective address; A stays. -/
def ShiftsMemory (i : Instr) (bytes : List Byte) (place : Place) (f : Byte → Bool → Byte × Bool) : Prop :=
  Stores i bytes (fun s => reads (place.pointerReads + 1) ++ [some (address place s, (f (operand (.mem place) s) s.p.c).1)])
    fun s => { s with
      p := { nz s.p (f (operand (.mem place) s) s.p.c).1 with c := (f (operand (.mem place) s) s.p.c).2 }
      pc := past s bytes }

/-- ASL on numbers (42_shift_rotate.md R121). -/
def aslOf (t : Byte) (_c : Bool) : Byte × Bool := (BitVec.ofNat 8 (2 * t.toNat), decide (128 ≤ t.toNat))

/-- LSR on numbers (42_shift_rotate.md R122). -/
def lsrOf (t : Byte) (_c : Bool) : Byte × Bool := (BitVec.ofNat 8 (t.toNat / 2), decide (t.toNat % 2 = 1))

/-- ROL on numbers (42_shift_rotate.md R123). -/
def rolOf (t : Byte) (c : Bool) : Byte × Bool := (BitVec.ofNat 8 (2 * t.toNat + c.toNat), decide (128 ≤ t.toNat))

/-- ROR on numbers (42_shift_rotate.md R124). -/
def rorOf (t : Byte) (c : Bool) : Byte × Bool := (BitVec.ofNat 8 (t.toNat / 2 + 128 * c.toNat), decide (t.toNat % 2 = 1))

/-- INC or DEC (46_incdec.md R160, R163): one read and one write, at the effective address, of the byte plus `n`
modulo 256; N and Z of it. -/
def StepsMemory (i : Instr) (bytes : List Byte) (place : Place) (n : Nat) : Prop :=
  Stores i bytes
    (fun s => reads (place.pointerReads + 1) ++ [some (address place s, BitVec.ofNat 8 ((operand (.mem place) s).toNat + n))])
    fun s => { s with p := nz s.p (BitVec.ofNat 8 ((operand (.mem place) s).toNat + n)), pc := past s bytes }

/-- A branch (43_branch.md R130): PC is the next instruction plus the signed displacement when the condition holds, the next
instruction otherwise; nothing else changes. -/
def Branches (i : Instr) (bytes : List Byte) (d : Byte) (condition : State → Bool) : Prop :=
  Sets i bytes fun s => { s with
    pc := if condition s then BitVec.ofInt 16 (s.pc.toNat + 2 + d.toInt) else past s bytes }

/-- The status byte, bit 7 to bit 0: N V 1 b D I Z C (10_state.md R15, R20). -/
def statusByte (p : Flags) (b : Bool) : Byte := BitVec.ofBoolListBE [p.n, p.v, true, b, p.d, p.i, p.z, p.c]

/-- The pushes of an entry: PC's high byte, its low byte, and the status byte N V 1 B D I Z C (60_exceptions.md R219). -/
def pushes (s : State) (ret : Addr) (p : Flags) (b : Bool) : List Access :=
  [some (stackAddr s.sp, highByte ret), some (stackAddr (s.sp - 1), lowByte ret), some (stackAddr (s.sp - 2), statusByte p b)]

/-- An entry to a handler from `s` (60_exceptions.md R219; 44_system.md R140): three pushes, then the two reads of the vector; PC is the
number they give, low byte first, SP three lower, I set; what else is not as in `s` is said by `u`. -/
def Enters (s : State) (ret : Addr) (p : Flags) (b : Bool) (vector : Addr) (u t : State) : Prop :=
  s.After t (pushes s ret p b ++ reads 2) ∧
  RegistersOf { u with
    pc := BitVec.ofNat 16 (s.wordRead (pushes s ret p b) s.draws vector (vector + 1)), sp := s.sp - 3, p := { p with i := true } } t

/-- Flags with V set where the SO pin has fallen (60_exceptions.md R226). -/
def withSo (p : Flags) (h : HostInput) : Flags := { p with v := p.v || h.soEdge }

/-! The cycle table of 70_reset_and_hazards.md R253, by mnemonic class and mode. -/

/-- The number an instruction's operand bytes stand for, low byte first (30_encoding.md R73). -/
def operandNumber (i : Instr) : Nat := (encode i).tail.foldr (fun b n => b.toNat + 256 * n) 0

/-- The stores of R253. -/
def isStore (m : Mnemonic) : Bool := m ∈ ([.sta, .stx, .sty] : List Mnemonic)

/-- The read-modify-write instructions of R253. -/
def isReadModifyWrite (m : Mnemonic) : Bool := m ∈ ([.asl, .lsr, .rol, .ror, .inc, .dec] : List Mnemonic)

/-- The condition of a branch (43_branch.md R131 to R138). -/
def branchCondition (p : Flags) : Mnemonic → Bool
  | .bcc => !p.c
  | .bcs => p.c
  | .bne => !p.z
  | .beq => p.z
  | .bpl => !p.n
  | .bmi => p.n
  | .bvc => !p.v
  | .bvs => p.v
  | _ => false

/-- One more cycle where the page is crossed (R254): adding the index to `base` modulo 65536 changes its high byte. -/
def crossing (base : Nat) (index : Byte) : Nat := if (base + index.toNat) % 65536 / 256 = base / 256 then 0 else 1

/-- The pointer of (Indirect),Y at the page-zero address `b`, as a number (30_encoding.md R86). -/
def zeroPagePointerNumber (s : State) (b : Nat) : Nat :=
  s.wordRead [] s.draws (BitVec.ofNat 16 b) (BitVec.ofNat 16 ((b + 1) % 256))

/-- The table of R253: by mode, then by class; a branch takes 2 cycles, 3 when taken, 4 when taken to another page than the next
instruction's. -/
def tableCycles (i : Instr) (s : State) : Nat :=
  let w := operandNumber i
  match i.mode with
  | .implied =>
    if i.mnemonic ∈ ([.pha, .php] : List Mnemonic) then 3
    else if i.mnemonic ∈ ([.pla, .plp] : List Mnemonic) then 4
    else if i.mnemonic ∈ ([.rts, .rti] : List Mnemonic) then 6
    else if i.mnemonic = .brk then 7
    else 2
  | .accumulator => 2
  | .immediate => 2
  | .zeroPage => if isReadModifyWrite i.mnemonic then 5 else 3
  | .zeroPageX | .zeroPageY => if isReadModifyWrite i.mnemonic then 6 else 4
  | .absolute =>
    if i.mnemonic = .jmp then 3 else if i.mnemonic = .jsr then 6 else if isReadModifyWrite i.mnemonic then 6 else 4
  | .absoluteX => if isReadModifyWrite i.mnemonic then 7 else if isStore i.mnemonic then 5 else 4 + crossing w s.x
  | .absoluteY => if isStore i.mnemonic then 5 else 4 + crossing w s.y
  | .indirect => 5
  | .indirectX => 6
  | .indirectY => if isStore i.mnemonic then 6 else 5 + crossing (zeroPagePointerNumber s w) s.y
  | .relative =>
    let next := (s.pc.toNat + 2) % 65536
    let target := (next + (BitVec.ofNat 8 w).toInt) % 65536
    if branchCondition s.p i.mnemonic = true then (if target / 256 = next / 256 then 3 else 4) else 2

end Sys2Proof.Claims

open Sys2Proof Sys2Proof.Machine Sys2Proof.Claims

/-! ### Encoding -/

/-- Every instruction is well formed (30_encoding.md R92: operand bytes are never invalid), so this is over all of `Instr`. Operand byte
order is the decision D6. -/
def Obligations.DecodeInvertsEncode : Prop :=
  ∀ (i : Instr) (rest : List Byte), decode (encode i ++ rest) = .instr i rest

/-- Each word has one meaning (30_encoding.md R92, derived there). -/
def Obligations.DecodedBytesAreTheEncoding : Prop :=
  ∀ (bytes : List Byte) (i : Instr) (rest : List Byte), decode bytes = .instr i rest → bytes = encode i ++ rest

/-- The list is the one of 30_encoding.md R91. -/
def Obligations.UnassignedOpcodesAreTheListed : Prop :=
  (∀ op : Byte, decodeOpcode op = none ↔ op.toNat ∈ unassignedOpcodes) ∧ unassignedOpcodes.length = 105

/-- The thirteen examples S2 of 95_test_vectors.md, one per addressing mode. -/
def Obligations.WrittenWordsDecode : Prop :=
  decode [0x00] = .instr .brk [] ∧ decode [0x0A] = .instr .aslAcc [] ∧ decode [0x69, 0x12] = .instr (.adcImm 0x12) [] ∧
  decode [0x90, 0x12] = .instr (.bcc 0x12) [] ∧ decode [0x65, 0x12] = .instr (.adcZp 0x12) [] ∧
  decode [0x75, 0x12] = .instr (.adcZpx 0x12) [] ∧ decode [0xB6, 0x12] = .instr (.ldxZpy 0x12) [] ∧
  decode [0x6D, 0x34, 0x12] = .instr (.adcAbs 0x1234) [] ∧ decode [0x7D, 0x34, 0x12] = .instr (.adcAbx 0x1234) [] ∧
  decode [0x79, 0x34, 0x12] = .instr (.adcAby 0x1234) [] ∧ decode [0x6C, 0x34, 0x12] = .instr (.jmpInd 0x1234) [] ∧
  decode [0x61, 0x12] = .instr (.adcIzx 0x12) [] ∧ decode [0x71, 0x12] = .instr (.adcIzy 0x12) []

/-! ### The step -/

/-- The instruction step (30_encoding.md R72). `exec` starts with PC at the opcode byte and moves it past the bytes itself. Every
instruction is well formed. Each byte is what memory holds at its own read (other bus masters may write between them, log 27). A
fetch from `device` or `unmapped` addresses reads free bytes (log 5); clause (b) covers it. -/
def Obligations.StepRunsDecodedInstruction : Prop :=
  (∀ (s t : State) (i : Instr) (rest : List Byte), s.boundary = .run t →
    decode [(t.busTurns 1).peek t.pc, (t.busTurns 2).peek (t.pc + 1), (t.busTurns 3).peek (t.pc + 2)] = .instr i rest →
    (∀ j, j < i.length → t.readable (t.pc + BitVec.ofNat 16 j) = true) →
    step s = exec i (t.busTurns i.length)) ∧
  (∀ (s t u : State) (i : Instr), s.boundary = .run t → t.fetchInstr = .instr i u → step s = exec i u)

/-- The refusal is the spec's decision D16 (30_encoding.md R91, log 9). -/
def Obligations.UndefinedOpcodeIsRefused : Prop :=
  ∀ s t : State, s.boundary = .run t → t.readable t.pc = true → ((t.busTurns 1).peek t.pc).toNat ∈ unassignedOpcodes →
    step s = .refused (.undefinedOpcode ((t.busTurns 1).peek t.pc) t.pc)

/-- 60_exceptions.md R213, decisions D17 and D18 (log 6, log 18). The tape is the model's own form of `Host`. -/
def Obligations.UntakenBoundaryRunsTheInstruction : Prop :=
  (∀ (s : State) (h : HostInput) (rest : List HostInput), s.host = h :: rest → h.reset = false →
    (((s.nmiPending || h.nmiEdge) && h.take) = false) →
    ((h.irqLevel && (!s.p.i || s.iWindow) && h.take) = false) →
    s.boundary = .run { s with
      p := withSo s.p h, nmiPending := s.nmiPending || h.nmiEdge, iWindow := false, host := rest }) ∧
  (∀ s : State, s.host = [] → s.nmiPending = false → ((s.irqHeld && (!s.p.i || s.iWindow)) = false) →
    s.boundary = .run { s with iWindow := false })

/-- No instruction faults (60_exceptions.md R211); the one refusal is that of 40_arithmetic.md R102 (decision D10, log 7). -/
def Obligations.EveryInstructionCompletesOrIsDecimalRefused : Prop :=
  ∀ (i : Instr) (s : State),
    ((i.mnemonic = .adc ∨ i.mnemonic = .sbc) ∧ s.p.d = true ∧ s.decimalPolicy = .refuse →
      exec i s = .refused (.decimalMode s.pc)) ∧
    (¬ ((i.mnemonic = .adc ∨ i.mnemonic = .sbc) ∧ s.p.d = true ∧ s.decimalPolicy = .refuse) →
      ∃ t, exec i s = .next t)

/-! ### Reset -/

/-- The values 10_state.md R28 gives (decision D19) and the policy 00_scope.md R3 fixes (decision D10); the other registers' zeros are the
model's (log 1) and not stated. That memory is canonical is the invariant of `StepKeepsMemoryCanonical` at reset. -/
def Obligations.ResetStateHolds : Prop :=
  State.reset.p.i = true ∧ State.reset.nmiPending = false ∧ State.reset.iWindow = false ∧
  State.reset.decimalPolicy = .refuse ∧ State.reset.pc = (State.reset.read16 0xFFFC).1 ∧ State.reset.wf = true

/-- 70_reset_and_hazards.md R240, R241 (decisions D19, D29); the draw is a free value (log 8); it holds for every draw. That reset comes
before NMI and IRQ is 60_exceptions.md R217. -/
def Obligations.ResetBoundaryLoadsTheVector : Prop :=
  ∀ (s : State) (h : HostInput) (rest : List HostInput), s.host = h :: rest → h.reset = true →
    let r := Config.resetDraw s.draws
    ∃ k, step s = .next { s with
      a := r.a, x := r.x, y := r.y, sp := r.sp
      p := { n := r.n, v := r.v, d := r.d, i := true, z := r.z, c := r.c }
      nmiPending := false, iWindow := false, host := rest
      pc := BitVec.ofNat 16 (s.wordRead [] (s.draws + 1) 0xFFFC 0xFFFD)
      mem := (s.busTurns 2).mem, bus := s.bus.drop 2, draws := k }

/-! ### Interrupts -/

/-- 60_exceptions.md R213, R216, R217, R219 (decisions D15, D17; log 18). -/
def Obligations.NmiEntryAtABoundary : Prop :=
  ∀ (s : State) (h : HostInput) (rest : List HostInput), s.host = h :: rest → h.reset = false → h.take = true →
    (s.nmiPending || h.nmiEdge) = true →
    ∃ t, step s = .next t ∧
      Enters s s.pc (withSo s.p h) false 0xFFFA { s with nmiPending := false, iWindow := false, host := rest } t

/-- 60_exceptions.md R213, R214, R215, R219 (decisions D15, D17, D18; log 18). -/
def Obligations.IrqEntryAtABoundary : Prop :=
  ∀ (s : State) (h : HostInput) (rest : List HostInput), s.host = h :: rest → h.reset = false → h.take = true →
    (s.nmiPending || h.nmiEdge) = false → h.irqLevel = true → (!s.p.i || s.iWindow) = true →
    ∃ t, step s = .next t ∧
      Enters s s.pc (withSo s.p h) false 0xFFFE { s with nmiPending := false, iWindow := false, host := rest } t

/-- 60_exceptions.md R226 (decision D20, log 24). -/
def Obligations.SoEdgeOnlySetsOverflow : Prop :=
  ∀ (s : State) (h : HostInput) (rest : List HostInput), s.host = h :: rest → h.soEdge = true →
    step s = step { s with p := { s.p with v := true }, host := { h with soEdge := false } :: rest }

/-- 60_exceptions.md R215: no other rule writes the window, and the very next boundary clears it (decision D18, log 18). -/
def Obligations.WindowOnlyAfterSeiOrPlp : Prop :=
  ∀ s t : State, step s = .next t → t.iWindow = true →
    ∃ u i v, s.boundary = .run u ∧ u.fetchInstr = .instr i v ∧ (i = .sei ∨ i = .plp) ∧ s.p.i = false ∧ t.p.i = true

/-- 60_exceptions.md R216: no instruction clears it and I does not mask it (decision D17, log 18). -/
def Obligations.PendingNmiIsNotLost : Prop :=
  ∀ s t : State, (s.nmiPending || s.input.nmiEdge) = true → step s = .next t →
    t.nmiPending = true ∨ s.input.reset = true ∨
      (s.input.take = true ∧ s.boundary = .entered (((s.applyPins s.input).setNmiPending false).intEntry 0xFFFA))

/-- Fairness, 60_exceptions.md R224 (decision D18), in the model's form: R224 gives no bound. MODEL'S CHOICE (log 6): the tape is finite
and the input after it takes. -/
def Obligations.PendingNmiIsTakenOrResetOccurs : Prop :=
  ∀ s : State, s.nmiPending = true → ∃ n, n ≤ s.host.length ∧
    ((∃ u t, Sys2Proof.core.run n s = .next u ∧ u.nmiPending = true ∧ u.boundary = .entered t ∧
        (u.input.reset = true ∨ t = ((u.applyPins u.input).setNmiPending false).intEntry 0xFFFA)) ∨
      ∃ r, Sys2Proof.core.run n s = .refused r)

/-- Fairness, 60_exceptions.md R224 (decision D18), for the level, in the model's form: R224 gives no bound. MODEL'S CHOICE (log 6): from
the tape's end on `/IRQ` stays as `irqHeld` says, and the IRQ is taken at the first boundary where I, or the window, lets it
through. After an NMI that is pending is R217's. -/
def Obligations.HeldIrqIsTaken : Prop :=
  ∀ (s u : State) (k : Nat), s.irqHeld = true → Sys2Proof.core.run (s.host.length + k) s = .next u →
    u.host = [] ∧ u.irqHeld = true ∧
    (u.nmiPending = false → (!u.p.i || u.iWindow) = true →
      ∃ t, step u = .next t ∧ Enters u u.pc u.p false 0xFFFE { u with iWindow := false } t) ∧
    (u.nmiPending = true →
      ∃ t, step u = .next t ∧ Enters u u.pc u.p false 0xFFFA { u with nmiPending := false, iWindow := false } t)

/-! ### Memory -/

/-- 20_memory.md R58, R54, R43, R52 (decisions D21, D22; the list of turns is the model's, log 27; the free byte, log 5). Before each access
the other bus masters have their turn, which writes RAM and nothing else; then the access reads or writes one byte. -/
def Obligations.AccessesFollowTheBusMasters : Prop :=
  ∀ s : State,
    (∀ n, s.busTurns n = { s with mem := (s.busTurns n).mem, bus := s.bus.drop n } ∧
      ∀ c, (s.busTurns n).peek c = s.byteAfter (reads n) c) ∧
    (s.bus = [] → ∀ n, s.busTurns n = s) ∧
    (∀ (ws : List (Addr × Byte)) (rest : List (List (Addr × Byte))) (a : Addr) (v : Byte),
      s.bus = (ws ++ [(a, v)]) :: rest → s.kindAt a = .ram → (s.busTurns 1).peek a = v) ∧
    (∀ a, s.memRead a =
      (s.byteRead [] s.draws a, { s with mem := (s.busTurns 1).mem, bus := s.bus.tail, draws := s.draws + s.drawsFor a })) ∧
    (∀ a v, s.After (s.memWrite a v) [some (a, v)] ∧ RegistersOf s (s.memWrite a v) ∧ (s.memWrite a v).draws = s.draws)

/-- The invariant of the model's memory (20_memory.md R40; the canonical form is the model's, log 2). -/
def Obligations.StepKeepsMemoryCanonical : Prop :=
  ∀ s t : State, s.wf = true → step s = .next t → t.wf = true

/-- 20_memory.md R52: ROM has a fixed content and unmapped writes have no effect (decision D22, log 4). That the byte held at a `device`
address stays is the model's choice (log 5), and so is that other bus masters' writes reach RAM only (log 27). -/
def Obligations.StepWritesMemoryOnlyInRam : Prop :=
  ∀ (s t : State) (a : Addr), step s = .next t → s.kindAt a ≠ .ram → t.peek a = s.peek a

/-- The parameters are not state (10_state.md R27) and the log records events (20_memory.md R52); the fields are the
model's (log 4, 5, 6, 7, 27). -/
def Obligations.StepKeepsTheParameters : Prop :=
  ∀ s t : State, step s = .next t →
    t.memMap = s.memMap ∧ t.decimalPolicy = s.decimalPolicy ∧ t.host = s.host.tail ∧ t.irqHeld = s.irqHeld ∧
    t.bus <:+ s.bus ∧ s.deviceWrites <+: t.deviceWrites

/-- 20_memory.md R52, R53, R54 (decision D22); the free byte and its counter are the model's (log 5). -/
def Obligations.OperandByteByRegionKind : Prop :=
  (∀ b s, operand (.immediate b) s = b) ∧
  (∀ (place : Place) (s : State), s.readable (address place s) = true →
    operand (.mem place) s = s.byteAfter (reads (place.pointerReads + 1)) (address place s)) ∧
  (∀ (place : Place) (s : State), s.readable (address place s) = true → s.bus = [] →
    operand (.mem place) s = s.peek (address place s)) ∧
  (∀ (place : Place) (s : State), s.readable (address place s) = false →
    operand (.mem place) s = Config.openBusByte (place.resolve s).2.draws ∧
      ((Source.mem place).fetch s).2.draws = (place.resolve s).2.draws + 1)

/-! ### Addressing modes -/

/-- 30_encoding.md R78 to R83; the wraps are the decision D7 (log 13). -/
def Obligations.DirectModesAddresses : Prop :=
  ∀ (s : State) (b : Byte) (w : Addr),
    (address (.zeroPage b) s).toNat = b.toNat ∧
    (address (.zeroPageX b) s).toNat = (b.toNat + s.x.toNat) % 256 ∧
    (address (.zeroPageY b) s).toNat = (b.toNat + s.y.toNat) % 256 ∧
    address (.absolute w) s = w ∧
    (address (.absoluteX w) s).toNat = (w.toNat + s.x.toNat) % 65536 ∧
    (address (.absoluteY w) s).toNat = (w.toNat + s.y.toNat) % 65536 ∧
    ∀ place ∈ [Place.zeroPage b, .zeroPageX b, .zeroPageY b, .absolute w, .absoluteX w, .absoluteY w],
      (place.resolve s).2 = s

/-- 30_encoding.md R84 (decision D28, log 23), R85 (D7, log 13), R86 (D7, D8, log 14); the byte order is 20_memory.md R44 (D6, log 12).
`wordRead` is the number two reads give, low byte first: with no other bus master, and both bytes in memory, the high byte
times 256 plus the low byte, as the clause about `read16`, the read of a vector (20_memory.md R50), says out. -/
def Obligations.PointerModesAddresses : Prop :=
  ∀ (s : State) (b : Byte) (w : Addr),
    (∀ lo hi : Addr, lo.toNat = (b.toNat + s.x.toNat) % 256 → hi.toNat = (b.toNat + s.x.toNat + 1) % 256 →
      (address (.indirectX b) s).toNat = s.wordRead [] s.draws lo hi) ∧
    (∀ lo hi : Addr, lo.toNat = b.toNat → hi.toNat = (b.toNat + 1) % 256 →
      (address (.indirectY b) s).toNat = (s.wordRead [] s.draws lo hi + s.y.toNat) % 65536) ∧
    (∀ hi : Addr, hi.toNat = w.toNat / 256 * 256 + (w.toNat + 1) % 256 →
      (s.jumpPointer w).1.toNat = s.wordRead [] s.draws w hi) ∧
    (s.read16 w).1.toNat = s.wordRead [] s.draws w (w + 1) ∧
    (s.bus = [] → s.readable w = true → s.readable (w + 1) = true →
      (s.read16 w).1.toNat = (s.peek (w + 1)).toNat * 256 + (s.peek w).toNat) ∧
    (∀ lo hi : Addr, s.bus = [] → s.readable lo = true → s.readable hi = true →
      s.wordRead [] s.draws lo hi = (s.peek hi).toNat * 256 + (s.peek lo).toNat)

/-! ### Load and store -/

/-- 48_load_store.md R180, R181, R182. `operand` is the byte the mode names (`OperandByteByRegionKind`). -/
def Obligations.LoadsSetRegisterAndNZ : Prop :=
  (∀ b, LoadsA (.ldaImm b) [0xA9, b] (.immediate b)) ∧
  (∀ b, LoadsA (.ldaZp b) [0xA5, b] (.mem (.zeroPage b))) ∧
  (∀ b, LoadsA (.ldaZpx b) [0xB5, b] (.mem (.zeroPageX b))) ∧
  (∀ w, LoadsA (.ldaAbs w) [0xAD, lowByte w, highByte w] (.mem (.absolute w))) ∧
  (∀ w, LoadsA (.ldaAbx w) [0xBD, lowByte w, highByte w] (.mem (.absoluteX w))) ∧
  (∀ w, LoadsA (.ldaAby w) [0xB9, lowByte w, highByte w] (.mem (.absoluteY w))) ∧
  (∀ b, LoadsA (.ldaIzx b) [0xA1, b] (.mem (.indirectX b))) ∧
  (∀ b, LoadsA (.ldaIzy b) [0xB1, b] (.mem (.indirectY b))) ∧
  (∀ b, LoadsX (.ldxImm b) [0xA2, b] (.immediate b)) ∧
  (∀ b, LoadsX (.ldxZp b) [0xA6, b] (.mem (.zeroPage b))) ∧
  (∀ b, LoadsX (.ldxZpy b) [0xB6, b] (.mem (.zeroPageY b))) ∧
  (∀ w, LoadsX (.ldxAbs w) [0xAE, lowByte w, highByte w] (.mem (.absolute w))) ∧
  (∀ w, LoadsX (.ldxAby w) [0xBE, lowByte w, highByte w] (.mem (.absoluteY w))) ∧
  (∀ b, LoadsY (.ldyImm b) [0xA0, b] (.immediate b)) ∧
  (∀ b, LoadsY (.ldyZp b) [0xA4, b] (.mem (.zeroPage b))) ∧
  (∀ b, LoadsY (.ldyZpx b) [0xB4, b] (.mem (.zeroPageX b))) ∧
  (∀ w, LoadsY (.ldyAbs w) [0xAC, lowByte w, highByte w] (.mem (.absolute w))) ∧
  (∀ w, LoadsY (.ldyAbx w) [0xBC, lowByte w, highByte w] (.mem (.absoluteX w)))

/-- 48_load_store.md R183, R184, R185. `address` is the address the mode names. -/
def Obligations.StoresWriteOneByteAndNoFlag : Prop :=
  (∀ b, StoresReg (.staZp b) [0x85, b] (.zeroPage b) State.a) ∧
  (∀ b, StoresReg (.staZpx b) [0x95, b] (.zeroPageX b) State.a) ∧
  (∀ w, StoresReg (.staAbs w) [0x8D, lowByte w, highByte w] (.absolute w) State.a) ∧
  (∀ w, StoresReg (.staAbx w) [0x9D, lowByte w, highByte w] (.absoluteX w) State.a) ∧
  (∀ w, StoresReg (.staAby w) [0x99, lowByte w, highByte w] (.absoluteY w) State.a) ∧
  (∀ b, StoresReg (.staIzx b) [0x81, b] (.indirectX b) State.a) ∧
  (∀ b, StoresReg (.staIzy b) [0x91, b] (.indirectY b) State.a) ∧
  (∀ b, StoresReg (.stxZp b) [0x86, b] (.zeroPage b) State.x) ∧
  (∀ b, StoresReg (.stxZpy b) [0x96, b] (.zeroPageY b) State.x) ∧
  (∀ w, StoresReg (.stxAbs w) [0x8E, lowByte w, highByte w] (.absolute w) State.x) ∧
  (∀ b, StoresReg (.styZp b) [0x84, b] (.zeroPage b) State.y) ∧
  (∀ b, StoresReg (.styZpx b) [0x94, b] (.zeroPageX b) State.y) ∧
  (∀ w, StoresReg (.styAbs w) [0x8C, lowByte w, highByte w] (.absolute w) State.y)

/-! ### Arithmetic and compare -/

/-- 40_arithmetic.md R100; the readings of C and V are the decision D9 (log 15). -/
def Obligations.AdcAddsWithCarry : Prop :=
  (∀ b, AddsBinary (.adcImm b) [0x69, b] (.immediate b)) ∧
  (∀ b, AddsBinary (.adcZp b) [0x65, b] (.mem (.zeroPage b))) ∧
  (∀ b, AddsBinary (.adcZpx b) [0x75, b] (.mem (.zeroPageX b))) ∧
  (∀ w, AddsBinary (.adcAbs w) [0x6D, lowByte w, highByte w] (.mem (.absolute w))) ∧
  (∀ w, AddsBinary (.adcAbx w) [0x7D, lowByte w, highByte w] (.mem (.absoluteX w))) ∧
  (∀ w, AddsBinary (.adcAby w) [0x79, lowByte w, highByte w] (.mem (.absoluteY w))) ∧
  (∀ b, AddsBinary (.adcIzx b) [0x61, b] (.mem (.indirectX b))) ∧
  (∀ b, AddsBinary (.adcIzy b) [0x71, b] (.mem (.indirectY b)))

/-- 40_arithmetic.md R101; the readings of C and V are the decision D9 (log 15). -/
def Obligations.SbcSubtractsWithBorrow : Prop :=
  (∀ b, SubtractsBinary (.sbcImm b) [0xE9, b] (.immediate b)) ∧
  (∀ b, SubtractsBinary (.sbcZp b) [0xE5, b] (.mem (.zeroPage b))) ∧
  (∀ b, SubtractsBinary (.sbcZpx b) [0xF5, b] (.mem (.zeroPageX b))) ∧
  (∀ w, SubtractsBinary (.sbcAbs w) [0xED, lowByte w, highByte w] (.mem (.absolute w))) ∧
  (∀ w, SubtractsBinary (.sbcAbx w) [0xFD, lowByte w, highByte w] (.mem (.absoluteX w))) ∧
  (∀ w, SubtractsBinary (.sbcAby w) [0xF9, lowByte w, highByte w] (.mem (.absoluteY w))) ∧
  (∀ b, SubtractsBinary (.sbcIzx b) [0xE1, b] (.mem (.indirectX b))) ∧
  (∀ b, SubtractsBinary (.sbcIzy b) [0xF1, b] (.mem (.indirectY b)))

/-- 40_arithmetic.md R101, which derives it. -/
def Obligations.SbcIsAdcOfTheComplement : Prop :=
  ∀ (a m : Byte) (c : Bool), subBinary a m c = addBinary a (m ^^^ 0xFF) c

/-- The other value of the policy (log 7): 40_arithmetic.md R102 offers it and 93_implementation_defined.md GK12 gives the algorithm, for
every operand, valid BCD or not. -/
def Obligations.DecimalArithmeticRuns : Prop :=
  (∀ b, AddsDecimal (.adcImm b) [0x69, b] (.immediate b)) ∧
  (∀ b, AddsDecimal (.adcZp b) [0x65, b] (.mem (.zeroPage b))) ∧
  (∀ b, AddsDecimal (.adcZpx b) [0x75, b] (.mem (.zeroPageX b))) ∧
  (∀ w, AddsDecimal (.adcAbs w) [0x6D, lowByte w, highByte w] (.mem (.absolute w))) ∧
  (∀ w, AddsDecimal (.adcAbx w) [0x7D, lowByte w, highByte w] (.mem (.absoluteX w))) ∧
  (∀ w, AddsDecimal (.adcAby w) [0x79, lowByte w, highByte w] (.mem (.absoluteY w))) ∧
  (∀ b, AddsDecimal (.adcIzx b) [0x61, b] (.mem (.indirectX b))) ∧
  (∀ b, AddsDecimal (.adcIzy b) [0x71, b] (.mem (.indirectY b))) ∧
  (∀ b, SubtractsDecimal (.sbcImm b) [0xE9, b] (.immediate b)) ∧
  (∀ b, SubtractsDecimal (.sbcZp b) [0xE5, b] (.mem (.zeroPage b))) ∧
  (∀ b, SubtractsDecimal (.sbcZpx b) [0xF5, b] (.mem (.zeroPageX b))) ∧
  (∀ w, SubtractsDecimal (.sbcAbs w) [0xED, lowByte w, highByte w] (.mem (.absolute w))) ∧
  (∀ w, SubtractsDecimal (.sbcAbx w) [0xFD, lowByte w, highByte w] (.mem (.absoluteX w))) ∧
  (∀ w, SubtractsDecimal (.sbcAby w) [0xF9, lowByte w, highByte w] (.mem (.absoluteY w))) ∧
  (∀ b, SubtractsDecimal (.sbcIzx b) [0xE1, b] (.mem (.indirectX b))) ∧
  (∀ b, SubtractsDecimal (.sbcIzy b) [0xF1, b] (.mem (.indirectY b)))

/-- 93_implementation_defined.md GK12: for operands that are valid BCD, A and C are the decimal sum or difference and its
carry or no-borrow. -/
def Obligations.DecimalResultsAreDecimal : Prop :=
  ∀ (a m : Byte) (c : Bool), isBcd a → isBcd m →
    (isBcd (addDecimal a m c).value ∧
      bcdValue (addDecimal a m c).value = (bcdValue a + bcdValue m + c.toNat) % 100 ∧
      (addDecimal a m c).c = decide (100 ≤ bcdValue a + bcdValue m + c.toNat)) ∧
    (isBcd (subDecimal a m c).value ∧
      (bcdValue (subDecimal a m c).value : Int) = ((bcdValue a : Int) - bcdValue m - (1 - c.toNat)) % 100 ∧
      (subDecimal a m c).c = decide ((0 : Int) ≤ (bcdValue a : Int) - bcdValue m - (1 - c.toNat)))

/-- 40_arithmetic.md R103, R104, R105; the unsigned reading is the decision D11 (log 15). -/
def Obligations.ComparesSetCarryZeroNegative : Prop :=
  (∀ b, Compares (.cmpImm b) [0xC9, b] (.immediate b) State.a) ∧
  (∀ b, Compares (.cmpZp b) [0xC5, b] (.mem (.zeroPage b)) State.a) ∧
  (∀ b, Compares (.cmpZpx b) [0xD5, b] (.mem (.zeroPageX b)) State.a) ∧
  (∀ w, Compares (.cmpAbs w) [0xCD, lowByte w, highByte w] (.mem (.absolute w)) State.a) ∧
  (∀ w, Compares (.cmpAbx w) [0xDD, lowByte w, highByte w] (.mem (.absoluteX w)) State.a) ∧
  (∀ w, Compares (.cmpAby w) [0xD9, lowByte w, highByte w] (.mem (.absoluteY w)) State.a) ∧
  (∀ b, Compares (.cmpIzx b) [0xC1, b] (.mem (.indirectX b)) State.a) ∧
  (∀ b, Compares (.cmpIzy b) [0xD1, b] (.mem (.indirectY b)) State.a) ∧
  (∀ b, Compares (.cpxImm b) [0xE0, b] (.immediate b) State.x) ∧
  (∀ b, Compares (.cpxZp b) [0xE4, b] (.mem (.zeroPage b)) State.x) ∧
  (∀ w, Compares (.cpxAbs w) [0xEC, lowByte w, highByte w] (.mem (.absolute w)) State.x) ∧
  (∀ b, Compares (.cpyImm b) [0xC0, b] (.immediate b) State.y) ∧
  (∀ b, Compares (.cpyZp b) [0xC4, b] (.mem (.zeroPage b)) State.y) ∧
  (∀ w, Compares (.cpyAbs w) [0xCC, lowByte w, highByte w] (.mem (.absolute w)) State.y)

/-! ### Logical -/

/-- 41_logical.md R110, R112, R113. -/
def Obligations.LogicalInstructionsCombine : Prop :=
  (∀ b, Combines (.andImm b) [0x29, b] (.immediate b) fun a m => a &&& m) ∧
  (∀ b, Combines (.andZp b) [0x25, b] (.mem (.zeroPage b)) fun a m => a &&& m) ∧
  (∀ b, Combines (.andZpx b) [0x35, b] (.mem (.zeroPageX b)) fun a m => a &&& m) ∧
  (∀ w, Combines (.andAbs w) [0x2D, lowByte w, highByte w] (.mem (.absolute w)) fun a m => a &&& m) ∧
  (∀ w, Combines (.andAbx w) [0x3D, lowByte w, highByte w] (.mem (.absoluteX w)) fun a m => a &&& m) ∧
  (∀ w, Combines (.andAby w) [0x39, lowByte w, highByte w] (.mem (.absoluteY w)) fun a m => a &&& m) ∧
  (∀ b, Combines (.andIzx b) [0x21, b] (.mem (.indirectX b)) fun a m => a &&& m) ∧
  (∀ b, Combines (.andIzy b) [0x31, b] (.mem (.indirectY b)) fun a m => a &&& m) ∧
  (∀ b, Combines (.eorImm b) [0x49, b] (.immediate b) fun a m => a ^^^ m) ∧
  (∀ b, Combines (.eorZp b) [0x45, b] (.mem (.zeroPage b)) fun a m => a ^^^ m) ∧
  (∀ b, Combines (.eorZpx b) [0x55, b] (.mem (.zeroPageX b)) fun a m => a ^^^ m) ∧
  (∀ w, Combines (.eorAbs w) [0x4D, lowByte w, highByte w] (.mem (.absolute w)) fun a m => a ^^^ m) ∧
  (∀ w, Combines (.eorAbx w) [0x5D, lowByte w, highByte w] (.mem (.absoluteX w)) fun a m => a ^^^ m) ∧
  (∀ w, Combines (.eorAby w) [0x59, lowByte w, highByte w] (.mem (.absoluteY w)) fun a m => a ^^^ m) ∧
  (∀ b, Combines (.eorIzx b) [0x41, b] (.mem (.indirectX b)) fun a m => a ^^^ m) ∧
  (∀ b, Combines (.eorIzy b) [0x51, b] (.mem (.indirectY b)) fun a m => a ^^^ m) ∧
  (∀ b, Combines (.oraImm b) [0x09, b] (.immediate b) fun a m => a ||| m) ∧
  (∀ b, Combines (.oraZp b) [0x05, b] (.mem (.zeroPage b)) fun a m => a ||| m) ∧
  (∀ b, Combines (.oraZpx b) [0x15, b] (.mem (.zeroPageX b)) fun a m => a ||| m) ∧
  (∀ w, Combines (.oraAbs w) [0x0D, lowByte w, highByte w] (.mem (.absolute w)) fun a m => a ||| m) ∧
  (∀ w, Combines (.oraAbx w) [0x1D, lowByte w, highByte w] (.mem (.absoluteX w)) fun a m => a ||| m) ∧
  (∀ w, Combines (.oraAby w) [0x19, lowByte w, highByte w] (.mem (.absoluteY w)) fun a m => a ||| m) ∧
  (∀ b, Combines (.oraIzx b) [0x01, b] (.mem (.indirectX b)) fun a m => a ||| m) ∧
  (∀ b, Combines (.oraIzy b) [0x11, b] (.mem (.indirectY b)) fun a m => a ||| m)

/-- 41_logical.md R111; N and V from the operand is the decision D12 (log 15). -/
def Obligations.BitTestsTheOperand : Prop :=
  (∀ b, TestsBits (.bitZp b) [0x24, b] (.mem (.zeroPage b))) ∧
  (∀ w, TestsBits (.bitAbs w) [0x2C, lowByte w, highByte w] (.mem (.absolute w)))

/-! ### Shift and rotate -/

/-- 42_shift_rotate.md R121, R120. -/
def Obligations.AslShiftsLeft : Prop :=
  (ShiftsA .aslAcc [0x0A] aslOf) ∧
  (∀ b, ShiftsMemory (.aslZp b) [0x06, b] (.zeroPage b) aslOf) ∧
  (∀ b, ShiftsMemory (.aslZpx b) [0x16, b] (.zeroPageX b) aslOf) ∧
  (∀ w, ShiftsMemory (.aslAbs w) [0x0E, lowByte w, highByte w] (.absolute w) aslOf) ∧
  (∀ w, ShiftsMemory (.aslAbx w) [0x1E, lowByte w, highByte w] (.absoluteX w) aslOf)

/-- 42_shift_rotate.md R122, R120. -/
def Obligations.LsrShiftsRight : Prop :=
  (ShiftsA .lsrAcc [0x4A] lsrOf) ∧
  (∀ b, ShiftsMemory (.lsrZp b) [0x46, b] (.zeroPage b) lsrOf) ∧
  (∀ b, ShiftsMemory (.lsrZpx b) [0x56, b] (.zeroPageX b) lsrOf) ∧
  (∀ w, ShiftsMemory (.lsrAbs w) [0x4E, lowByte w, highByte w] (.absolute w) lsrOf) ∧
  (∀ w, ShiftsMemory (.lsrAbx w) [0x5E, lowByte w, highByte w] (.absoluteX w) lsrOf)

/-- 42_shift_rotate.md R123, R120. -/
def Obligations.RolRotatesLeft : Prop :=
  (ShiftsA .rolAcc [0x2A] rolOf) ∧
  (∀ b, ShiftsMemory (.rolZp b) [0x26, b] (.zeroPage b) rolOf) ∧
  (∀ b, ShiftsMemory (.rolZpx b) [0x36, b] (.zeroPageX b) rolOf) ∧
  (∀ w, ShiftsMemory (.rolAbs w) [0x2E, lowByte w, highByte w] (.absolute w) rolOf) ∧
  (∀ w, ShiftsMemory (.rolAbx w) [0x3E, lowByte w, highByte w] (.absoluteX w) rolOf)

/-- 42_shift_rotate.md R124, R120. -/
def Obligations.RorRotatesRight : Prop :=
  (ShiftsA .rorAcc [0x6A] rorOf) ∧
  (∀ b, ShiftsMemory (.rorZp b) [0x66, b] (.zeroPage b) rorOf) ∧
  (∀ b, ShiftsMemory (.rorZpx b) [0x76, b] (.zeroPageX b) rorOf) ∧
  (∀ w, ShiftsMemory (.rorAbs w) [0x6E, lowByte w, highByte w] (.absolute w) rorOf) ∧
  (∀ w, ShiftsMemory (.rorAbx w) [0x7E, lowByte w, highByte w] (.absoluteX w) rorOf)

/-! ### Increment and decrement -/

/-- 46_incdec.md R160, R163; adding 255 modulo 256 is subtracting 1. -/
def Obligations.MemoryStepsByOne : Prop :=
  (∀ b, StepsMemory (.incZp b) [0xE6, b] (.zeroPage b) 1) ∧
  (∀ b, StepsMemory (.incZpx b) [0xF6, b] (.zeroPageX b) 1) ∧
  (∀ w, StepsMemory (.incAbs w) [0xEE, lowByte w, highByte w] (.absolute w) 1) ∧
  (∀ w, StepsMemory (.incAbx w) [0xFE, lowByte w, highByte w] (.absoluteX w) 1) ∧
  (∀ b, StepsMemory (.decZp b) [0xC6, b] (.zeroPage b) 255) ∧
  (∀ b, StepsMemory (.decZpx b) [0xD6, b] (.zeroPageX b) 255) ∧
  (∀ w, StepsMemory (.decAbs w) [0xCE, lowByte w, highByte w] (.absolute w) 255) ∧
  (∀ w, StepsMemory (.decAbx w) [0xDE, lowByte w, highByte w] (.absoluteX w) 255)

/-- 46_incdec.md R161, R162, R164, R165; adding 255 modulo 256 is subtracting 1. -/
def Obligations.IndexRegistersStepByOne : Prop :=
  (Sets .inx [0xE8] fun s => { s with
    x := BitVec.ofNat 8 (s.x.toNat + 1), p := nz s.p (BitVec.ofNat 8 (s.x.toNat + 1)), pc := s.pc + 1 }) ∧
  (Sets .iny [0xC8] fun s => { s with
    y := BitVec.ofNat 8 (s.y.toNat + 1), p := nz s.p (BitVec.ofNat 8 (s.y.toNat + 1)), pc := s.pc + 1 }) ∧
  (Sets .dex [0xCA] fun s => { s with
    x := BitVec.ofNat 8 (s.x.toNat + 255), p := nz s.p (BitVec.ofNat 8 (s.x.toNat + 255)), pc := s.pc + 1 }) ∧
  (Sets .dey [0x88] fun s => { s with
    y := BitVec.ofNat 8 (s.y.toNat + 255), p := nz s.p (BitVec.ofNat 8 (s.y.toNat + 255)), pc := s.pc + 1 })

/-! ### Branches -/

/-- 43_branch.md R130 to R138; the base of the displacement is the decision D13 (log 16). -/
def Obligations.BranchesAddTheDisplacement : Prop :=
  (∀ d, Branches (.bcc d) [0x90, d] d fun s => !s.p.c) ∧
  (∀ d, Branches (.bcs d) [0xB0, d] d fun s => s.p.c) ∧
  (∀ d, Branches (.beq d) [0xF0, d] d fun s => s.p.z) ∧
  (∀ d, Branches (.bmi d) [0x30, d] d fun s => s.p.n) ∧
  (∀ d, Branches (.bne d) [0xD0, d] d fun s => !s.p.z) ∧
  (∀ d, Branches (.bpl d) [0x10, d] d fun s => !s.p.n) ∧
  (∀ d, Branches (.bvc d) [0x50, d] d fun s => !s.p.v) ∧
  (∀ d, Branches (.bvs d) [0x70, d] d fun s => s.p.v)

/-! ### Jumps and subroutines -/

/-- 47_jump_subroutine.md R170; what the pointer is, `PointerModesAddresses` says (decision D28, log 23). -/
def Obligations.JmpSetsPc : Prop :=
  (∀ w, Sets (.jmpAbs w) [0x4C, lowByte w, highByte w] fun s => { s with pc := w }) ∧
  (∀ w, Leaves (.jmpInd w) [0x6C, lowByte w, highByte w] 2 fun s => { s with pc := (s.jumpPointer w).1 })

/-- 47_jump_subroutine.md R171; direction, place and byte order of the stack are the decisions D5, D6, D31 (log 10, log 12). -/
def Obligations.JsrPushesTheLastByteAddress : Prop :=
  ∀ w, Stores (.jsr w) [0x20, lowByte w, highByte w]
    (fun s => [some (stackAddr s.sp, highByte (s.pc + 2)), some (stackAddr (s.sp - 1), lowByte (s.pc + 2))])
    fun s => { s with pc := w, sp := s.sp - 2 }

/-- 47_jump_subroutine.md R172 (decisions D5, D6; log 10, log 12). -/
def Obligations.RtsPullsAndAddsOne : Prop :=
  Leaves .rts [0x60] 2 fun s => { s with
    pc := BitVec.ofNat 16 (s.wordRead [] s.draws (stackAddr (s.sp + 1)) (stackAddr (s.sp + 2)) + 1), sp := s.sp + 2 }

/-- 47_jump_subroutine.md R171, R172 (derived there), where no other bus master writes the two stacked bytes. -/
def Obligations.RtsUndoesJsr : Prop :=
  ∀ (s t u : State) (w : Addr), s.kindAt (stackAddr s.sp) = .ram → s.kindAt (stackAddr (s.sp - 1)) = .ram →
    s.Untouched (stackAddr s.sp) → s.Untouched (stackAddr (s.sp - 1)) → exec (.jsr w) s = .next t →
    u.sp = t.sp → u.memMap = t.memMap → u.Untouched (stackAddr s.sp) → u.Untouched (stackAddr (s.sp - 1)) →
    u.peek (stackAddr s.sp) = t.peek (stackAddr s.sp) → u.peek (stackAddr (s.sp - 1)) = t.peek (stackAddr (s.sp - 1)) →
    exec .rts u = .next { u with pc := s.pc + 3, sp := s.sp, mem := (u.busTurns 2).mem, bus := u.bus.drop 2 }

/-! ### System -/

/-- 44_system.md R141. -/
def Obligations.NopOnlyAdvancesPc : Prop :=
  Sets .nop [0xEA] fun s => { s with pc := s.pc + 1 }

/-- 44_system.md R140 (decision D15; log 17). -/
def Obligations.BrkEntersTheIrqHandler : Prop :=
  encode .brk = [0x00] ∧ ∀ s, ∃ t, exec .brk s = .next t ∧ Enters s (s.pc + 2) s.p true 0xFFFE s t

/-- 44_system.md R142 (decisions D4, D6; log 11, log 12). -/
def Obligations.RtiPullsFlagsAndPc : Prop :=
  Leaves .rti [0x40] 3 fun s =>
    let f := s.byteRead [] s.draws (stackAddr (s.sp + 1))
    { s with
      p := { n := f.getLsbD 7, v := f.getLsbD 6, d := f.getLsbD 3, i := f.getLsbD 2, z := f.getLsbD 1, c := f.getLsbD 0 }
      pc := BitVec.ofNat 16 (s.wordRead (reads 1) (s.draws + s.drawsFor (stackAddr (s.sp + 1)))
        (stackAddr (s.sp + 2)) (stackAddr (s.sp + 3)))
      sp := s.sp + 3 }

/-- 60_exceptions.md R220 (the pushed byte holds the old flags; log 17, log 18), where no other bus master writes the
three stacked bytes. -/
def Obligations.RtiUndoesAnEntry : Prop :=
  ∀ (s u : State) (ret : Addr) (b : Bool) (vector : Addr),
    let t := s.enterHandler ret b vector
    (∀ c ∈ [stackAddr s.sp, stackAddr (s.sp - 1), stackAddr (s.sp - 2)],
      s.kindAt c = .ram ∧ s.Untouched c ∧ u.Untouched c ∧ u.peek c = t.peek c) →
    u.sp = t.sp → u.memMap = t.memMap →
    exec .rti u = .next { u with pc := ret, sp := s.sp, p := s.p, mem := (u.busTurns 3).mem, bus := u.bus.drop 3 }

/-! ### Flags -/

/-- 45_flag.md R150 to R155. -/
def Obligations.FlagInstructionsWriteOneFlag : Prop :=
  (Sets .clc [0x18] fun s => { s with p := { s.p with c := false }, pc := s.pc + 1 }) ∧
  (Sets .cld [0xD8] fun s => { s with p := { s.p with d := false }, pc := s.pc + 1 }) ∧
  (Sets .cli [0x58] fun s => { s with p := { s.p with i := false }, pc := s.pc + 1 }) ∧
  (Sets .clv [0xB8] fun s => { s with p := { s.p with v := false }, pc := s.pc + 1 }) ∧
  (Sets .sec [0x38] fun s => { s with p := { s.p with c := true }, pc := s.pc + 1 }) ∧
  (Sets .sed [0xF8] fun s => { s with p := { s.p with d := true }, pc := s.pc + 1 })

/-- 45_flag.md R156; the window is the decision D18 (log 18). -/
def Obligations.SeiSetsIAndOpensTheWindow : Prop :=
  Sets .sei [0x78] fun s => { s with p := { s.p with i := true }, iWindow := s.iWindow || !s.p.i, pc := s.pc + 1 }

/-! ### Stack and transfers -/

/-- 49_stack_transfer.md R190, R191 (decisions D3, D4, D5; log 10, log 11). -/
def Obligations.PushesStoreBelow : Prop :=
  (Stores .pha [0x48] (fun s => [some (stackAddr s.sp, s.a)]) fun s => { s with sp := s.sp - 1, pc := s.pc + 1 }) ∧
  (Stores .php [0x08] (fun s => [some (stackAddr s.sp, statusByte s.p true)])
    fun s => { s with sp := s.sp - 1, pc := s.pc + 1 })

/-- 49_stack_transfer.md R192, R193 (decisions D4, D5, D18; log 10, log 11, log 18). -/
def Obligations.PullsLoadAAndTheFlags : Prop :=
  (Leaves .pla [0x68] 1 fun s =>
    let v := s.byteRead [] s.draws (stackAddr (s.sp + 1))
    { s with a := v, p := nz s.p v, sp := s.sp + 1, pc := s.pc + 1 }) ∧
  (Leaves .plp [0x28] 1 fun s =>
    let f := s.byteRead [] s.draws (stackAddr (s.sp + 1))
    { s with
      p := { n := f.getLsbD 7, v := f.getLsbD 6, d := f.getLsbD 3, i := f.getLsbD 2, z := f.getLsbD 1, c := f.getLsbD 0 }
      iWindow := s.iWindow || (!s.p.i && f.getLsbD 2), sp := s.sp + 1, pc := s.pc + 1 })

/-- 20_memory.md R42, R47, R48 (decision D5; log 10). The pull of a `device` or `unmapped` stack byte is a free byte (log 5). -/
def Obligations.PullReadsAboveTheStackPointer : Prop :=
  (∀ (s : State) (c : Addr), c.toNat = 256 + (s.sp.toNat + 1) % 256 →
    s.pull8 = (s.byteRead [] s.draws c,
      { s with sp := s.sp + 1, mem := (s.busTurns 1).mem, bus := s.bus.tail, draws := s.draws + s.drawsFor c })) ∧
  (∀ (s : State) (c : Addr), c.toNat = 256 + (s.sp.toNat + 1) % 256 → s.readable c = true → s.bus = [] →
    s.pull8 = (s.peek c, { s with sp := s.sp + 1 })) ∧
  (∀ (s : State) (v : Byte) (c : Addr), c.toNat = 256 + s.sp.toNat → s.kindAt c = .ram → s.Untouched c →
    (s.push8 v).pull8.1 = v ∧ (s.push8 v).pull8.2.sp = s.sp)

/-- 49_stack_transfer.md R194 to R199. -/
def Obligations.TransfersCopy : Prop :=
  (Sets .tax [0xAA] fun s => { s with x := s.a, p := nz s.p s.a, pc := s.pc + 1 }) ∧
  (Sets .tay [0xA8] fun s => { s with y := s.a, p := nz s.p s.a, pc := s.pc + 1 }) ∧
  (Sets .tsx [0xBA] fun s => { s with x := s.sp, p := nz s.p s.sp, pc := s.pc + 1 }) ∧
  (Sets .txa [0x8A] fun s => { s with a := s.x, p := nz s.p s.x, pc := s.pc + 1 }) ∧
  (Sets .tya [0x98] fun s => { s with a := s.y, p := nz s.p s.y, pc := s.pc + 1 }) ∧
  (Sets .txs [0x9A] fun s => { s with sp := s.x, pc := s.pc + 1 })

/-! ### Whole-machine rules -/

/-- 10_state.md R16, R17, R18, R22, R24, R25. SO, interrupt entry and reset, the other writers, are not instructions. BRK setting I is the
decision D15 (log 17). -/
def Obligations.FlagsHaveTheirListedWriters : Prop :=
  ∀ (i : Instr) (s t : State), exec i s = .next t →
    (t.p.c ≠ s.p.c → i.mnemonic ∈ ([.adc, .sbc, .cmp, .cpx, .cpy, .asl, .rol, .lsr, .ror, .clc, .sec, .plp, .rti] : List Mnemonic)) ∧
    (t.p.z ≠ s.p.z ∨ t.p.n ≠ s.p.n → i.mnemonic ∈
      ([.adc, .sbc, .and, .ora, .eor, .bit, .cmp, .cpx, .cpy, .asl, .lsr, .rol, .ror, .inc, .dec, .inx, .iny,
        .dex, .dey, .lda, .ldx, .ldy, .pla, .tax, .tay, .tsx, .txa, .tya, .plp, .rti] : List Mnemonic)) ∧
    (t.p.i ≠ s.p.i → i.mnemonic ∈ ([.cli, .sei, .plp, .rti, .brk] : List Mnemonic)) ∧
    (t.p.d ≠ s.p.d → i.mnemonic ∈ ([.cld, .sed, .plp, .rti] : List Mnemonic)) ∧
    (t.p.v ≠ s.p.v → i.mnemonic ∈ ([.adc, .sbc, .bit, .clv, .plp, .rti] : List Mnemonic))

/-- 10_state.md R10, R11, R12, R13; 20_memory.md R53 (exactly the accesses the rules name; memory that other bus
masters alone have changed is `busTurns`); 60_exceptions.md R216. -/
def Obligations.RegistersHaveTheirListedWriters : Prop :=
  ∀ (i : Instr) (s t : State), exec i s = .next t →
    (t.a ≠ s.a → i.mnemonic ∈
      ([.adc, .sbc, .and, .ora, .eor, .asl, .lsr, .rol, .ror, .lda, .pla, .txa, .tya] : List Mnemonic)) ∧
    (t.x ≠ s.x → i.mnemonic ∈ ([.ldx, .tax, .tsx, .inx, .dex] : List Mnemonic)) ∧
    (t.y ≠ s.y → i.mnemonic ∈ ([.ldy, .tay, .iny, .dey] : List Mnemonic)) ∧
    (t.sp ≠ s.sp → i.mnemonic ∈ ([.txs, .pha, .php, .pla, .plp, .jsr, .rts, .brk, .rti] : List Mnemonic)) ∧
    ((∀ n, t.mem ≠ (s.busTurns n).mem) ∨ t.deviceWrites ≠ s.deviceWrites → i.mnemonic ∈
      ([.sta, .stx, .sty, .asl, .lsr, .rol, .ror, .inc, .dec, .pha, .php, .jsr, .brk] : List Mnemonic)) ∧
    (t.pc ≠ s.pc + BitVec.ofNat 16 i.length → i.mnemonic ∈
      ([.bcc, .bcs, .beq, .bmi, .bne, .bpl, .bvc, .bvs, .jmp, .jsr, .rts, .rti, .brk] : List Mnemonic)) ∧
    t.nmiPending = s.nmiPending

/-- 10_state.md R15, R20, R21, R23 (decisions D3, D4; log 11). -/
def Obligations.StatusByteRoundTrip : Prop :=
  (∀ (p : Flags) (b : Bool), p.pack b = statusByte p b ∧ Flags.unpack (p.pack b) = p) ∧
  (∀ v : Byte, Flags.unpack (v &&& 0xCF) = Flags.unpack v)

/-- 70_reset_and_hazards.md R256, convention (a) (decision D26, log 19). -/
def Obligations.SelfJumpHalts : Prop :=
  ∀ s : State, s.host = [] → s.irqHeld = false → s.bus = [] → s.nmiPending = false → s.iWindow = false →
    s.readable s.pc = true → s.readable (s.pc + 1) = true →
    ((s.readable (s.pc + 2) = true → s.peek s.pc = 0x4C → s.peek (s.pc + 1) = lowByte s.pc →
        s.peek (s.pc + 2) = highByte s.pc → s.haltedBySelfLoop) ∧
      (s.peek (s.pc + 1) = 0xFE →
        (s.peek s.pc = 0x90 ∧ s.p.c = false) ∨ (s.peek s.pc = 0xB0 ∧ s.p.c = true) ∨
        (s.peek s.pc = 0xF0 ∧ s.p.z = true) ∨ (s.peek s.pc = 0x30 ∧ s.p.n = true) ∨
        (s.peek s.pc = 0xD0 ∧ s.p.z = false) ∨ (s.peek s.pc = 0x10 ∧ s.p.n = false) ∨
        (s.peek s.pc = 0x50 ∧ s.p.v = false) ∨ (s.peek s.pc = 0x70 ∧ s.p.v = true) → s.haltedBySelfLoop))

/-- 70_reset_and_hazards.md R253, R254: the counts by the table of R253, as information no rule reads (log 20). -/
def Obligations.CyclesFollowTheTable : Prop :=
  ∀ (i : Instr) (s : State), cyclesOf i s = tableCycles i s
end

