-- ==== Sys2Proof/Laws/Memory.lean ====
section
/-! SUPPORT. The laws of memory as a list: a byte written is the byte read, a write leaves every other byte alone, and every
write keeps the canonical form. -/

namespace Sys2Proof.Machine

theorem Memory.byteAt_unlist_same (m : Memory) (a : Nat) : Memory.byteAt (Memory.unlist m a) a = Config.unlistedByte := by
  induction m with
  | nil => rfl
  | cons c rest ih =>
    by_cases h : c.1 = a
    · simp [Memory.unlist, h, ih]
    · simp [Memory.unlist, Memory.byteAt, h, ih]

theorem Memory.byteAt_unlist_other (m : Memory) {a b : Nat} (h : b ≠ a) :
    Memory.byteAt (Memory.unlist m a) b = Memory.byteAt m b := by
  induction m with
  | nil => rfl
  | cons c rest ih =>
    by_cases hc : c.1 = a
    · have : c.1 ≠ b := fun e => h (e.symm.trans hc)
      simp [Memory.unlist, Memory.byteAt, hc, ih, h.symm]
    · simp [Memory.unlist, Memory.byteAt, hc, ih]

theorem Memory.byteAt_list_same (m : Memory) (a : Nat) (v : Byte) (h : ∀ c ∈ m, c.1 ≠ a) :
    Memory.byteAt (Memory.list m a v) a = v := by
  induction m with
  | nil => simp [Memory.list, Memory.byteAt]
  | cons c rest ih =>
    have hc : c.1 ≠ a := h c (by simp)
    have hr := ih (fun d hd => h d (by simp [hd]))
    by_cases hlt : a < c.1
    · simp [Memory.list, Memory.byteAt, hlt]
    · simp [Memory.list, Memory.byteAt, hlt, hc, hr]

theorem Memory.byteAt_list_other (m : Memory) {a b : Nat} (v : Byte) (h : b ≠ a) :
    Memory.byteAt (Memory.list m a v) b = Memory.byteAt m b := by
  induction m with
  | nil => simp [Memory.list, Memory.byteAt, h.symm]
  | cons c rest ih =>
    by_cases hlt : a < c.1
    · simp [Memory.list, Memory.byteAt, hlt, h.symm]
    · simp [Memory.list, Memory.byteAt, hlt, ih]

theorem Memory.unlist_unlisted (m : Memory) (a : Nat) : ∀ c ∈ Memory.unlist m a, c.1 ≠ a := by
  induction m with
  | nil => simp [Memory.unlist]
  | cons c rest ih =>
    by_cases hc : c.1 = a
    · simpa [Memory.unlist, hc] using ih
    · simpa [Memory.unlist, hc] using ih

/-- A byte written is the byte read. -/
@[simp] theorem Memory.byteAt_setByte_same (m : Memory) (a : Nat) (v : Byte) :
    Memory.byteAt (Memory.setByte m a v) a = v := by
  unfold Memory.setByte
  split
  · rename_i h; simp [Memory.byteAt_unlist_same, h]
  · exact Memory.byteAt_list_same _ _ _ (Memory.unlist_unlisted m a)

/-- A write leaves every other byte alone. -/
theorem Memory.byteAt_setByte_other (m : Memory) {a b : Nat} (v : Byte) (h : b ≠ a) :
    Memory.byteAt (Memory.setByte m a v) b = Memory.byteAt m b := by
  unfold Memory.setByte
  split
  · exact Memory.byteAt_unlist_other m h
  · rw [Memory.byteAt_list_other _ _ h, Memory.byteAt_unlist_other m h]

theorem Memory.byteAt_setByte (m : Memory) (a b : Nat) (v : Byte) :
    Memory.byteAt (Memory.setByte m a v) b = if b = a then v else Memory.byteAt m b := by
  split
  · rename_i h; simp [h]
  · rename_i h; exact Memory.byteAt_setByte_other m v h

theorem Memory.wfFrom_cons (lo k : Nat) (v : Byte) (rest : Memory) :
    Memory.wfFrom lo ((k, v) :: rest) = true ↔
      lo ≤ k ∧ k < 65536 ∧ v ≠ Config.unlistedByte ∧ Memory.wfFrom (k + 1) rest = true := by
  simp [Memory.wfFrom, and_assoc]

theorem Memory.wfFrom_mono {m : Memory} {lo lo' : Nat} (h : Memory.wfFrom lo m = true) (hl : lo' ≤ lo) :
    Memory.wfFrom lo' m = true := by
  cases m with
  | nil => rfl
  | cons c rest =>
    obtain ⟨h1, h2, h3, h4⟩ := (Memory.wfFrom_cons ..).1 h
    exact (Memory.wfFrom_cons ..).2 ⟨Nat.le_trans hl h1, h2, h3, h4⟩

theorem Memory.wfFrom_unlist {m : Memory} {lo : Nat} (a : Nat) (h : Memory.wfFrom lo m = true) :
    Memory.wfFrom lo (Memory.unlist m a) = true := by
  induction m generalizing lo with
  | nil => rfl
  | cons c rest ih =>
    obtain ⟨h1, h2, h3, h4⟩ := (Memory.wfFrom_cons ..).1 h
    by_cases hc : c.1 = a
    · simpa [Memory.unlist, hc] using Memory.wfFrom_mono (ih h4) (by omega)
    · simpa [Memory.unlist, hc] using (Memory.wfFrom_cons ..).2 ⟨h1, h2, h3, ih h4⟩

theorem Memory.wfFrom_list {m : Memory} {lo a : Nat} {v : Byte} (h : Memory.wfFrom lo m = true)
    (hm : ∀ c ∈ m, c.1 ≠ a) (hlo : lo ≤ a) (ha : a < 65536) (hv : v ≠ Config.unlistedByte) :
    Memory.wfFrom lo (Memory.list m a v) = true := by
  induction m generalizing lo with
  | nil => exact (Memory.wfFrom_cons ..).2 ⟨hlo, ha, hv, rfl⟩
  | cons c rest ih =>
    obtain ⟨h1, h2, h3, h4⟩ := (Memory.wfFrom_cons ..).1 h
    have hc : c.1 ≠ a := hm c (by simp)
    by_cases hlt : a < c.1
    · simpa [Memory.list, hlt] using
        (Memory.wfFrom_cons ..).2 ⟨hlo, ha, hv, (Memory.wfFrom_cons ..).2 ⟨hlt, h2, h3, h4⟩⟩
    · simpa [Memory.list, hlt] using
        (Memory.wfFrom_cons ..).2 ⟨h1, h2, h3, ih h4 (fun d hd => hm d (by simp [hd])) (by omega)⟩

/-- Every write keeps the canonical form. -/
theorem Memory.wf_setByte {m : Memory} {a : Nat} (v : Byte) (h : Memory.wf m = true) (ha : a < 65536) :
    Memory.wf (Memory.setByte m a v) = true := by
  unfold Memory.setByte
  split
  · exact Memory.wfFrom_unlist a h
  · rename_i hv
    exact Memory.wfFrom_list (Memory.wfFrom_unlist a h) (Memory.unlist_unlisted m a) (Nat.zero_le a) ha hv

end Sys2Proof.Machine
end

