-- ==== Sys2Proof/Laws/State.lean ====
section
/-! SUPPORT. One lemma per field per setter of `State`, so that no proof unfolds a record update. -/

namespace Sys2Proof.Machine

@[simp] theorem setA_a (s : State) (v : Byte) : (s.setA v).a = v := rfl
@[simp] theorem setA_x (s : State) (v : Byte) : (s.setA v).x = s.x := rfl
@[simp] theorem setA_y (s : State) (v : Byte) : (s.setA v).y = s.y := rfl
@[simp] theorem setA_sp (s : State) (v : Byte) : (s.setA v).sp = s.sp := rfl
@[simp] theorem setA_pc (s : State) (v : Byte) : (s.setA v).pc = s.pc := rfl
@[simp] theorem setA_p (s : State) (v : Byte) : (s.setA v).p = s.p := rfl
@[simp] theorem setA_nmiPending (s : State) (v : Byte) : (s.setA v).nmiPending = s.nmiPending := rfl
@[simp] theorem setA_iWindow (s : State) (v : Byte) : (s.setA v).iWindow = s.iWindow := rfl
@[simp] theorem setA_mem (s : State) (v : Byte) : (s.setA v).mem = s.mem := rfl
@[simp] theorem setA_memMap (s : State) (v : Byte) : (s.setA v).memMap = s.memMap := rfl
@[simp] theorem setA_decimalPolicy (s : State) (v : Byte) : (s.setA v).decimalPolicy = s.decimalPolicy := rfl
@[simp] theorem setA_host (s : State) (v : Byte) : (s.setA v).host = s.host := rfl
@[simp] theorem setA_irqHeld (s : State) (v : Byte) : (s.setA v).irqHeld = s.irqHeld := rfl
@[simp] theorem setA_bus (s : State) (v : Byte) : (s.setA v).bus = s.bus := rfl
@[simp] theorem setA_deviceWrites (s : State) (v : Byte) : (s.setA v).deviceWrites = s.deviceWrites := rfl
@[simp] theorem setA_draws (s : State) (v : Byte) : (s.setA v).draws = s.draws := rfl
@[simp] theorem setA_setA (s : State) (v w : Byte) : (s.setA v).setA w = s.setA w := rfl
@[simp] theorem setA_self (s : State) : s.setA s.a = s := rfl

@[simp] theorem setX_x (s : State) (v : Byte) : (s.setX v).x = v := rfl
@[simp] theorem setX_a (s : State) (v : Byte) : (s.setX v).a = s.a := rfl
@[simp] theorem setX_y (s : State) (v : Byte) : (s.setX v).y = s.y := rfl
@[simp] theorem setX_sp (s : State) (v : Byte) : (s.setX v).sp = s.sp := rfl
@[simp] theorem setX_pc (s : State) (v : Byte) : (s.setX v).pc = s.pc := rfl
@[simp] theorem setX_p (s : State) (v : Byte) : (s.setX v).p = s.p := rfl
@[simp] theorem setX_nmiPending (s : State) (v : Byte) : (s.setX v).nmiPending = s.nmiPending := rfl
@[simp] theorem setX_iWindow (s : State) (v : Byte) : (s.setX v).iWindow = s.iWindow := rfl
@[simp] theorem setX_mem (s : State) (v : Byte) : (s.setX v).mem = s.mem := rfl
@[simp] theorem setX_memMap (s : State) (v : Byte) : (s.setX v).memMap = s.memMap := rfl
@[simp] theorem setX_decimalPolicy (s : State) (v : Byte) : (s.setX v).decimalPolicy = s.decimalPolicy := rfl
@[simp] theorem setX_host (s : State) (v : Byte) : (s.setX v).host = s.host := rfl
@[simp] theorem setX_irqHeld (s : State) (v : Byte) : (s.setX v).irqHeld = s.irqHeld := rfl
@[simp] theorem setX_bus (s : State) (v : Byte) : (s.setX v).bus = s.bus := rfl
@[simp] theorem setX_deviceWrites (s : State) (v : Byte) : (s.setX v).deviceWrites = s.deviceWrites := rfl
@[simp] theorem setX_draws (s : State) (v : Byte) : (s.setX v).draws = s.draws := rfl
@[simp] theorem setX_setX (s : State) (v w : Byte) : (s.setX v).setX w = s.setX w := rfl
@[simp] theorem setX_self (s : State) : s.setX s.x = s := rfl

@[simp] theorem setY_y (s : State) (v : Byte) : (s.setY v).y = v := rfl
@[simp] theorem setY_a (s : State) (v : Byte) : (s.setY v).a = s.a := rfl
@[simp] theorem setY_x (s : State) (v : Byte) : (s.setY v).x = s.x := rfl
@[simp] theorem setY_sp (s : State) (v : Byte) : (s.setY v).sp = s.sp := rfl
@[simp] theorem setY_pc (s : State) (v : Byte) : (s.setY v).pc = s.pc := rfl
@[simp] theorem setY_p (s : State) (v : Byte) : (s.setY v).p = s.p := rfl
@[simp] theorem setY_nmiPending (s : State) (v : Byte) : (s.setY v).nmiPending = s.nmiPending := rfl
@[simp] theorem setY_iWindow (s : State) (v : Byte) : (s.setY v).iWindow = s.iWindow := rfl
@[simp] theorem setY_mem (s : State) (v : Byte) : (s.setY v).mem = s.mem := rfl
@[simp] theorem setY_memMap (s : State) (v : Byte) : (s.setY v).memMap = s.memMap := rfl
@[simp] theorem setY_decimalPolicy (s : State) (v : Byte) : (s.setY v).decimalPolicy = s.decimalPolicy := rfl
@[simp] theorem setY_host (s : State) (v : Byte) : (s.setY v).host = s.host := rfl
@[simp] theorem setY_irqHeld (s : State) (v : Byte) : (s.setY v).irqHeld = s.irqHeld := rfl
@[simp] theorem setY_bus (s : State) (v : Byte) : (s.setY v).bus = s.bus := rfl
@[simp] theorem setY_deviceWrites (s : State) (v : Byte) : (s.setY v).deviceWrites = s.deviceWrites := rfl
@[simp] theorem setY_draws (s : State) (v : Byte) : (s.setY v).draws = s.draws := rfl
@[simp] theorem setY_setY (s : State) (v w : Byte) : (s.setY v).setY w = s.setY w := rfl
@[simp] theorem setY_self (s : State) : s.setY s.y = s := rfl

@[simp] theorem setSp_sp (s : State) (v : Byte) : (s.setSp v).sp = v := rfl
@[simp] theorem setSp_a (s : State) (v : Byte) : (s.setSp v).a = s.a := rfl
@[simp] theorem setSp_x (s : State) (v : Byte) : (s.setSp v).x = s.x := rfl
@[simp] theorem setSp_y (s : State) (v : Byte) : (s.setSp v).y = s.y := rfl
@[simp] theorem setSp_pc (s : State) (v : Byte) : (s.setSp v).pc = s.pc := rfl
@[simp] theorem setSp_p (s : State) (v : Byte) : (s.setSp v).p = s.p := rfl
@[simp] theorem setSp_nmiPending (s : State) (v : Byte) : (s.setSp v).nmiPending = s.nmiPending := rfl
@[simp] theorem setSp_iWindow (s : State) (v : Byte) : (s.setSp v).iWindow = s.iWindow := rfl
@[simp] theorem setSp_mem (s : State) (v : Byte) : (s.setSp v).mem = s.mem := rfl
@[simp] theorem setSp_memMap (s : State) (v : Byte) : (s.setSp v).memMap = s.memMap := rfl
@[simp] theorem setSp_decimalPolicy (s : State) (v : Byte) : (s.setSp v).decimalPolicy = s.decimalPolicy := rfl
@[simp] theorem setSp_host (s : State) (v : Byte) : (s.setSp v).host = s.host := rfl
@[simp] theorem setSp_irqHeld (s : State) (v : Byte) : (s.setSp v).irqHeld = s.irqHeld := rfl
@[simp] theorem setSp_bus (s : State) (v : Byte) : (s.setSp v).bus = s.bus := rfl
@[simp] theorem setSp_deviceWrites (s : State) (v : Byte) : (s.setSp v).deviceWrites = s.deviceWrites := rfl
@[simp] theorem setSp_draws (s : State) (v : Byte) : (s.setSp v).draws = s.draws := rfl
@[simp] theorem setSp_setSp (s : State) (v w : Byte) : (s.setSp v).setSp w = s.setSp w := rfl
@[simp] theorem setSp_self (s : State) : s.setSp s.sp = s := rfl

@[simp] theorem setPc_pc (s : State) (v : Addr) : (s.setPc v).pc = v := rfl
@[simp] theorem setPc_a (s : State) (v : Addr) : (s.setPc v).a = s.a := rfl
@[simp] theorem setPc_x (s : State) (v : Addr) : (s.setPc v).x = s.x := rfl
@[simp] theorem setPc_y (s : State) (v : Addr) : (s.setPc v).y = s.y := rfl
@[simp] theorem setPc_sp (s : State) (v : Addr) : (s.setPc v).sp = s.sp := rfl
@[simp] theorem setPc_p (s : State) (v : Addr) : (s.setPc v).p = s.p := rfl
@[simp] theorem setPc_nmiPending (s : State) (v : Addr) : (s.setPc v).nmiPending = s.nmiPending := rfl
@[simp] theorem setPc_iWindow (s : State) (v : Addr) : (s.setPc v).iWindow = s.iWindow := rfl
@[simp] theorem setPc_mem (s : State) (v : Addr) : (s.setPc v).mem = s.mem := rfl
@[simp] theorem setPc_memMap (s : State) (v : Addr) : (s.setPc v).memMap = s.memMap := rfl
@[simp] theorem setPc_decimalPolicy (s : State) (v : Addr) : (s.setPc v).decimalPolicy = s.decimalPolicy := rfl
@[simp] theorem setPc_host (s : State) (v : Addr) : (s.setPc v).host = s.host := rfl
@[simp] theorem setPc_irqHeld (s : State) (v : Addr) : (s.setPc v).irqHeld = s.irqHeld := rfl
@[simp] theorem setPc_bus (s : State) (v : Addr) : (s.setPc v).bus = s.bus := rfl
@[simp] theorem setPc_deviceWrites (s : State) (v : Addr) : (s.setPc v).deviceWrites = s.deviceWrites := rfl
@[simp] theorem setPc_draws (s : State) (v : Addr) : (s.setPc v).draws = s.draws := rfl
@[simp] theorem setPc_setPc (s : State) (v w : Addr) : (s.setPc v).setPc w = s.setPc w := rfl
@[simp] theorem setPc_self (s : State) : s.setPc s.pc = s := rfl

@[simp] theorem setP_p (s : State) (v : Flags) : (s.setP v).p = v := rfl
@[simp] theorem setP_a (s : State) (v : Flags) : (s.setP v).a = s.a := rfl
@[simp] theorem setP_x (s : State) (v : Flags) : (s.setP v).x = s.x := rfl
@[simp] theorem setP_y (s : State) (v : Flags) : (s.setP v).y = s.y := rfl
@[simp] theorem setP_sp (s : State) (v : Flags) : (s.setP v).sp = s.sp := rfl
@[simp] theorem setP_pc (s : State) (v : Flags) : (s.setP v).pc = s.pc := rfl
@[simp] theorem setP_nmiPending (s : State) (v : Flags) : (s.setP v).nmiPending = s.nmiPending := rfl
@[simp] theorem setP_iWindow (s : State) (v : Flags) : (s.setP v).iWindow = s.iWindow := rfl
@[simp] theorem setP_mem (s : State) (v : Flags) : (s.setP v).mem = s.mem := rfl
@[simp] theorem setP_memMap (s : State) (v : Flags) : (s.setP v).memMap = s.memMap := rfl
@[simp] theorem setP_decimalPolicy (s : State) (v : Flags) : (s.setP v).decimalPolicy = s.decimalPolicy := rfl
@[simp] theorem setP_host (s : State) (v : Flags) : (s.setP v).host = s.host := rfl
@[simp] theorem setP_irqHeld (s : State) (v : Flags) : (s.setP v).irqHeld = s.irqHeld := rfl
@[simp] theorem setP_bus (s : State) (v : Flags) : (s.setP v).bus = s.bus := rfl
@[simp] theorem setP_deviceWrites (s : State) (v : Flags) : (s.setP v).deviceWrites = s.deviceWrites := rfl
@[simp] theorem setP_draws (s : State) (v : Flags) : (s.setP v).draws = s.draws := rfl
@[simp] theorem setP_setP (s : State) (v w : Flags) : (s.setP v).setP w = s.setP w := rfl
@[simp] theorem setP_self (s : State) : s.setP s.p = s := rfl

@[simp] theorem setNmiPending_nmiPending (s : State) (v : Bool) : (s.setNmiPending v).nmiPending = v := rfl
@[simp] theorem setNmiPending_a (s : State) (v : Bool) : (s.setNmiPending v).a = s.a := rfl
@[simp] theorem setNmiPending_x (s : State) (v : Bool) : (s.setNmiPending v).x = s.x := rfl
@[simp] theorem setNmiPending_y (s : State) (v : Bool) : (s.setNmiPending v).y = s.y := rfl
@[simp] theorem setNmiPending_sp (s : State) (v : Bool) : (s.setNmiPending v).sp = s.sp := rfl
@[simp] theorem setNmiPending_pc (s : State) (v : Bool) : (s.setNmiPending v).pc = s.pc := rfl
@[simp] theorem setNmiPending_p (s : State) (v : Bool) : (s.setNmiPending v).p = s.p := rfl
@[simp] theorem setNmiPending_iWindow (s : State) (v : Bool) : (s.setNmiPending v).iWindow = s.iWindow := rfl
@[simp] theorem setNmiPending_mem (s : State) (v : Bool) : (s.setNmiPending v).mem = s.mem := rfl
@[simp] theorem setNmiPending_memMap (s : State) (v : Bool) : (s.setNmiPending v).memMap = s.memMap := rfl
@[simp] theorem setNmiPending_decimalPolicy (s : State) (v : Bool) : (s.setNmiPending v).decimalPolicy = s.decimalPolicy := rfl
@[simp] theorem setNmiPending_host (s : State) (v : Bool) : (s.setNmiPending v).host = s.host := rfl
@[simp] theorem setNmiPending_irqHeld (s : State) (v : Bool) : (s.setNmiPending v).irqHeld = s.irqHeld := rfl
@[simp] theorem setNmiPending_bus (s : State) (v : Bool) : (s.setNmiPending v).bus = s.bus := rfl
@[simp] theorem setNmiPending_deviceWrites (s : State) (v : Bool) : (s.setNmiPending v).deviceWrites = s.deviceWrites := rfl
@[simp] theorem setNmiPending_draws (s : State) (v : Bool) : (s.setNmiPending v).draws = s.draws := rfl
@[simp] theorem setNmiPending_setNmiPending (s : State) (v w : Bool) : (s.setNmiPending v).setNmiPending w = s.setNmiPending w := rfl
@[simp] theorem setNmiPending_self (s : State) : s.setNmiPending s.nmiPending = s := rfl

@[simp] theorem setIWindow_iWindow (s : State) (v : Bool) : (s.setIWindow v).iWindow = v := rfl
@[simp] theorem setIWindow_a (s : State) (v : Bool) : (s.setIWindow v).a = s.a := rfl
@[simp] theorem setIWindow_x (s : State) (v : Bool) : (s.setIWindow v).x = s.x := rfl
@[simp] theorem setIWindow_y (s : State) (v : Bool) : (s.setIWindow v).y = s.y := rfl
@[simp] theorem setIWindow_sp (s : State) (v : Bool) : (s.setIWindow v).sp = s.sp := rfl
@[simp] theorem setIWindow_pc (s : State) (v : Bool) : (s.setIWindow v).pc = s.pc := rfl
@[simp] theorem setIWindow_p (s : State) (v : Bool) : (s.setIWindow v).p = s.p := rfl
@[simp] theorem setIWindow_nmiPending (s : State) (v : Bool) : (s.setIWindow v).nmiPending = s.nmiPending := rfl
@[simp] theorem setIWindow_mem (s : State) (v : Bool) : (s.setIWindow v).mem = s.mem := rfl
@[simp] theorem setIWindow_memMap (s : State) (v : Bool) : (s.setIWindow v).memMap = s.memMap := rfl
@[simp] theorem setIWindow_decimalPolicy (s : State) (v : Bool) : (s.setIWindow v).decimalPolicy = s.decimalPolicy := rfl
@[simp] theorem setIWindow_host (s : State) (v : Bool) : (s.setIWindow v).host = s.host := rfl
@[simp] theorem setIWindow_irqHeld (s : State) (v : Bool) : (s.setIWindow v).irqHeld = s.irqHeld := rfl
@[simp] theorem setIWindow_bus (s : State) (v : Bool) : (s.setIWindow v).bus = s.bus := rfl
@[simp] theorem setIWindow_deviceWrites (s : State) (v : Bool) : (s.setIWindow v).deviceWrites = s.deviceWrites := rfl
@[simp] theorem setIWindow_draws (s : State) (v : Bool) : (s.setIWindow v).draws = s.draws := rfl
@[simp] theorem setIWindow_setIWindow (s : State) (v w : Bool) : (s.setIWindow v).setIWindow w = s.setIWindow w := rfl
@[simp] theorem setIWindow_self (s : State) : s.setIWindow s.iWindow = s := rfl

@[simp] theorem setMem_mem (s : State) (v : Memory) : (s.setMem v).mem = v := rfl
@[simp] theorem setMem_a (s : State) (v : Memory) : (s.setMem v).a = s.a := rfl
@[simp] theorem setMem_x (s : State) (v : Memory) : (s.setMem v).x = s.x := rfl
@[simp] theorem setMem_y (s : State) (v : Memory) : (s.setMem v).y = s.y := rfl
@[simp] theorem setMem_sp (s : State) (v : Memory) : (s.setMem v).sp = s.sp := rfl
@[simp] theorem setMem_pc (s : State) (v : Memory) : (s.setMem v).pc = s.pc := rfl
@[simp] theorem setMem_p (s : State) (v : Memory) : (s.setMem v).p = s.p := rfl
@[simp] theorem setMem_nmiPending (s : State) (v : Memory) : (s.setMem v).nmiPending = s.nmiPending := rfl
@[simp] theorem setMem_iWindow (s : State) (v : Memory) : (s.setMem v).iWindow = s.iWindow := rfl
@[simp] theorem setMem_memMap (s : State) (v : Memory) : (s.setMem v).memMap = s.memMap := rfl
@[simp] theorem setMem_decimalPolicy (s : State) (v : Memory) : (s.setMem v).decimalPolicy = s.decimalPolicy := rfl
@[simp] theorem setMem_host (s : State) (v : Memory) : (s.setMem v).host = s.host := rfl
@[simp] theorem setMem_irqHeld (s : State) (v : Memory) : (s.setMem v).irqHeld = s.irqHeld := rfl
@[simp] theorem setMem_bus (s : State) (v : Memory) : (s.setMem v).bus = s.bus := rfl
@[simp] theorem setMem_deviceWrites (s : State) (v : Memory) : (s.setMem v).deviceWrites = s.deviceWrites := rfl
@[simp] theorem setMem_draws (s : State) (v : Memory) : (s.setMem v).draws = s.draws := rfl
@[simp] theorem setMem_setMem (s : State) (v w : Memory) : (s.setMem v).setMem w = s.setMem w := rfl
@[simp] theorem setMem_self (s : State) : s.setMem s.mem = s := rfl

@[simp] theorem setMemMap_memMap (s : State) (v : List Region) : (s.setMemMap v).memMap = v := rfl
@[simp] theorem setMemMap_a (s : State) (v : List Region) : (s.setMemMap v).a = s.a := rfl
@[simp] theorem setMemMap_x (s : State) (v : List Region) : (s.setMemMap v).x = s.x := rfl
@[simp] theorem setMemMap_y (s : State) (v : List Region) : (s.setMemMap v).y = s.y := rfl
@[simp] theorem setMemMap_sp (s : State) (v : List Region) : (s.setMemMap v).sp = s.sp := rfl
@[simp] theorem setMemMap_pc (s : State) (v : List Region) : (s.setMemMap v).pc = s.pc := rfl
@[simp] theorem setMemMap_p (s : State) (v : List Region) : (s.setMemMap v).p = s.p := rfl
@[simp] theorem setMemMap_nmiPending (s : State) (v : List Region) : (s.setMemMap v).nmiPending = s.nmiPending := rfl
@[simp] theorem setMemMap_iWindow (s : State) (v : List Region) : (s.setMemMap v).iWindow = s.iWindow := rfl
@[simp] theorem setMemMap_mem (s : State) (v : List Region) : (s.setMemMap v).mem = s.mem := rfl
@[simp] theorem setMemMap_decimalPolicy (s : State) (v : List Region) : (s.setMemMap v).decimalPolicy = s.decimalPolicy := rfl
@[simp] theorem setMemMap_host (s : State) (v : List Region) : (s.setMemMap v).host = s.host := rfl
@[simp] theorem setMemMap_irqHeld (s : State) (v : List Region) : (s.setMemMap v).irqHeld = s.irqHeld := rfl
@[simp] theorem setMemMap_bus (s : State) (v : List Region) : (s.setMemMap v).bus = s.bus := rfl
@[simp] theorem setMemMap_deviceWrites (s : State) (v : List Region) : (s.setMemMap v).deviceWrites = s.deviceWrites := rfl
@[simp] theorem setMemMap_draws (s : State) (v : List Region) : (s.setMemMap v).draws = s.draws := rfl
@[simp] theorem setMemMap_setMemMap (s : State) (v w : List Region) : (s.setMemMap v).setMemMap w = s.setMemMap w := rfl
@[simp] theorem setMemMap_self (s : State) : s.setMemMap s.memMap = s := rfl

@[simp] theorem setDecimalPolicy_decimalPolicy (s : State) (v : DecimalPolicy) : (s.setDecimalPolicy v).decimalPolicy = v := rfl
@[simp] theorem setDecimalPolicy_a (s : State) (v : DecimalPolicy) : (s.setDecimalPolicy v).a = s.a := rfl
@[simp] theorem setDecimalPolicy_x (s : State) (v : DecimalPolicy) : (s.setDecimalPolicy v).x = s.x := rfl
@[simp] theorem setDecimalPolicy_y (s : State) (v : DecimalPolicy) : (s.setDecimalPolicy v).y = s.y := rfl
@[simp] theorem setDecimalPolicy_sp (s : State) (v : DecimalPolicy) : (s.setDecimalPolicy v).sp = s.sp := rfl
@[simp] theorem setDecimalPolicy_pc (s : State) (v : DecimalPolicy) : (s.setDecimalPolicy v).pc = s.pc := rfl
@[simp] theorem setDecimalPolicy_p (s : State) (v : DecimalPolicy) : (s.setDecimalPolicy v).p = s.p := rfl
@[simp] theorem setDecimalPolicy_nmiPending (s : State) (v : DecimalPolicy) : (s.setDecimalPolicy v).nmiPending = s.nmiPending := rfl
@[simp] theorem setDecimalPolicy_iWindow (s : State) (v : DecimalPolicy) : (s.setDecimalPolicy v).iWindow = s.iWindow := rfl
@[simp] theorem setDecimalPolicy_mem (s : State) (v : DecimalPolicy) : (s.setDecimalPolicy v).mem = s.mem := rfl
@[simp] theorem setDecimalPolicy_memMap (s : State) (v : DecimalPolicy) : (s.setDecimalPolicy v).memMap = s.memMap := rfl
@[simp] theorem setDecimalPolicy_host (s : State) (v : DecimalPolicy) : (s.setDecimalPolicy v).host = s.host := rfl
@[simp] theorem setDecimalPolicy_irqHeld (s : State) (v : DecimalPolicy) : (s.setDecimalPolicy v).irqHeld = s.irqHeld := rfl
@[simp] theorem setDecimalPolicy_bus (s : State) (v : DecimalPolicy) : (s.setDecimalPolicy v).bus = s.bus := rfl
@[simp] theorem setDecimalPolicy_deviceWrites (s : State) (v : DecimalPolicy) : (s.setDecimalPolicy v).deviceWrites = s.deviceWrites := rfl
@[simp] theorem setDecimalPolicy_draws (s : State) (v : DecimalPolicy) : (s.setDecimalPolicy v).draws = s.draws := rfl
@[simp] theorem setDecimalPolicy_setDecimalPolicy (s : State) (v w : DecimalPolicy) : (s.setDecimalPolicy v).setDecimalPolicy w = s.setDecimalPolicy w := rfl
@[simp] theorem setDecimalPolicy_self (s : State) : s.setDecimalPolicy s.decimalPolicy = s := rfl

@[simp] theorem setHost_host (s : State) (v : List HostInput) : (s.setHost v).host = v := rfl
@[simp] theorem setHost_a (s : State) (v : List HostInput) : (s.setHost v).a = s.a := rfl
@[simp] theorem setHost_x (s : State) (v : List HostInput) : (s.setHost v).x = s.x := rfl
@[simp] theorem setHost_y (s : State) (v : List HostInput) : (s.setHost v).y = s.y := rfl
@[simp] theorem setHost_sp (s : State) (v : List HostInput) : (s.setHost v).sp = s.sp := rfl
@[simp] theorem setHost_pc (s : State) (v : List HostInput) : (s.setHost v).pc = s.pc := rfl
@[simp] theorem setHost_p (s : State) (v : List HostInput) : (s.setHost v).p = s.p := rfl
@[simp] theorem setHost_nmiPending (s : State) (v : List HostInput) : (s.setHost v).nmiPending = s.nmiPending := rfl
@[simp] theorem setHost_iWindow (s : State) (v : List HostInput) : (s.setHost v).iWindow = s.iWindow := rfl
@[simp] theorem setHost_mem (s : State) (v : List HostInput) : (s.setHost v).mem = s.mem := rfl
@[simp] theorem setHost_memMap (s : State) (v : List HostInput) : (s.setHost v).memMap = s.memMap := rfl
@[simp] theorem setHost_decimalPolicy (s : State) (v : List HostInput) : (s.setHost v).decimalPolicy = s.decimalPolicy := rfl
@[simp] theorem setHost_irqHeld (s : State) (v : List HostInput) : (s.setHost v).irqHeld = s.irqHeld := rfl
@[simp] theorem setHost_bus (s : State) (v : List HostInput) : (s.setHost v).bus = s.bus := rfl
@[simp] theorem setHost_deviceWrites (s : State) (v : List HostInput) : (s.setHost v).deviceWrites = s.deviceWrites := rfl
@[simp] theorem setHost_draws (s : State) (v : List HostInput) : (s.setHost v).draws = s.draws := rfl
@[simp] theorem setHost_setHost (s : State) (v w : List HostInput) : (s.setHost v).setHost w = s.setHost w := rfl
@[simp] theorem setHost_self (s : State) : s.setHost s.host = s := rfl

@[simp] theorem setIrqHeld_irqHeld (s : State) (v : Bool) : (s.setIrqHeld v).irqHeld = v := rfl
@[simp] theorem setIrqHeld_a (s : State) (v : Bool) : (s.setIrqHeld v).a = s.a := rfl
@[simp] theorem setIrqHeld_x (s : State) (v : Bool) : (s.setIrqHeld v).x = s.x := rfl
@[simp] theorem setIrqHeld_y (s : State) (v : Bool) : (s.setIrqHeld v).y = s.y := rfl
@[simp] theorem setIrqHeld_sp (s : State) (v : Bool) : (s.setIrqHeld v).sp = s.sp := rfl
@[simp] theorem setIrqHeld_pc (s : State) (v : Bool) : (s.setIrqHeld v).pc = s.pc := rfl
@[simp] theorem setIrqHeld_p (s : State) (v : Bool) : (s.setIrqHeld v).p = s.p := rfl
@[simp] theorem setIrqHeld_nmiPending (s : State) (v : Bool) : (s.setIrqHeld v).nmiPending = s.nmiPending := rfl
@[simp] theorem setIrqHeld_iWindow (s : State) (v : Bool) : (s.setIrqHeld v).iWindow = s.iWindow := rfl
@[simp] theorem setIrqHeld_mem (s : State) (v : Bool) : (s.setIrqHeld v).mem = s.mem := rfl
@[simp] theorem setIrqHeld_memMap (s : State) (v : Bool) : (s.setIrqHeld v).memMap = s.memMap := rfl
@[simp] theorem setIrqHeld_decimalPolicy (s : State) (v : Bool) : (s.setIrqHeld v).decimalPolicy = s.decimalPolicy := rfl
@[simp] theorem setIrqHeld_host (s : State) (v : Bool) : (s.setIrqHeld v).host = s.host := rfl
@[simp] theorem setIrqHeld_bus (s : State) (v : Bool) : (s.setIrqHeld v).bus = s.bus := rfl
@[simp] theorem setIrqHeld_deviceWrites (s : State) (v : Bool) : (s.setIrqHeld v).deviceWrites = s.deviceWrites := rfl
@[simp] theorem setIrqHeld_draws (s : State) (v : Bool) : (s.setIrqHeld v).draws = s.draws := rfl
@[simp] theorem setIrqHeld_setIrqHeld (s : State) (v w : Bool) : (s.setIrqHeld v).setIrqHeld w = s.setIrqHeld w := rfl
@[simp] theorem setIrqHeld_self (s : State) : s.setIrqHeld s.irqHeld = s := rfl

@[simp] theorem setBus_bus (s : State) (v : List (List (Addr × Byte))) : (s.setBus v).bus = v := rfl
@[simp] theorem setBus_a (s : State) (v : List (List (Addr × Byte))) : (s.setBus v).a = s.a := rfl
@[simp] theorem setBus_x (s : State) (v : List (List (Addr × Byte))) : (s.setBus v).x = s.x := rfl
@[simp] theorem setBus_y (s : State) (v : List (List (Addr × Byte))) : (s.setBus v).y = s.y := rfl
@[simp] theorem setBus_sp (s : State) (v : List (List (Addr × Byte))) : (s.setBus v).sp = s.sp := rfl
@[simp] theorem setBus_pc (s : State) (v : List (List (Addr × Byte))) : (s.setBus v).pc = s.pc := rfl
@[simp] theorem setBus_p (s : State) (v : List (List (Addr × Byte))) : (s.setBus v).p = s.p := rfl
@[simp] theorem setBus_nmiPending (s : State) (v : List (List (Addr × Byte))) : (s.setBus v).nmiPending = s.nmiPending := rfl
@[simp] theorem setBus_iWindow (s : State) (v : List (List (Addr × Byte))) : (s.setBus v).iWindow = s.iWindow := rfl
@[simp] theorem setBus_mem (s : State) (v : List (List (Addr × Byte))) : (s.setBus v).mem = s.mem := rfl
@[simp] theorem setBus_memMap (s : State) (v : List (List (Addr × Byte))) : (s.setBus v).memMap = s.memMap := rfl
@[simp] theorem setBus_decimalPolicy (s : State) (v : List (List (Addr × Byte))) : (s.setBus v).decimalPolicy = s.decimalPolicy := rfl
@[simp] theorem setBus_host (s : State) (v : List (List (Addr × Byte))) : (s.setBus v).host = s.host := rfl
@[simp] theorem setBus_irqHeld (s : State) (v : List (List (Addr × Byte))) : (s.setBus v).irqHeld = s.irqHeld := rfl
@[simp] theorem setBus_deviceWrites (s : State) (v : List (List (Addr × Byte))) : (s.setBus v).deviceWrites = s.deviceWrites := rfl
@[simp] theorem setBus_draws (s : State) (v : List (List (Addr × Byte))) : (s.setBus v).draws = s.draws := rfl
@[simp] theorem setBus_setBus (s : State) (v w : List (List (Addr × Byte))) : (s.setBus v).setBus w = s.setBus w := rfl
@[simp] theorem setBus_self (s : State) : s.setBus s.bus = s := rfl

@[simp] theorem setDeviceWrites_deviceWrites (s : State) (v : List (Addr × Byte)) : (s.setDeviceWrites v).deviceWrites = v := rfl
@[simp] theorem setDeviceWrites_a (s : State) (v : List (Addr × Byte)) : (s.setDeviceWrites v).a = s.a := rfl
@[simp] theorem setDeviceWrites_x (s : State) (v : List (Addr × Byte)) : (s.setDeviceWrites v).x = s.x := rfl
@[simp] theorem setDeviceWrites_y (s : State) (v : List (Addr × Byte)) : (s.setDeviceWrites v).y = s.y := rfl
@[simp] theorem setDeviceWrites_sp (s : State) (v : List (Addr × Byte)) : (s.setDeviceWrites v).sp = s.sp := rfl
@[simp] theorem setDeviceWrites_pc (s : State) (v : List (Addr × Byte)) : (s.setDeviceWrites v).pc = s.pc := rfl
@[simp] theorem setDeviceWrites_p (s : State) (v : List (Addr × Byte)) : (s.setDeviceWrites v).p = s.p := rfl
@[simp] theorem setDeviceWrites_nmiPending (s : State) (v : List (Addr × Byte)) : (s.setDeviceWrites v).nmiPending = s.nmiPending := rfl
@[simp] theorem setDeviceWrites_iWindow (s : State) (v : List (Addr × Byte)) : (s.setDeviceWrites v).iWindow = s.iWindow := rfl
@[simp] theorem setDeviceWrites_mem (s : State) (v : List (Addr × Byte)) : (s.setDeviceWrites v).mem = s.mem := rfl
@[simp] theorem setDeviceWrites_memMap (s : State) (v : List (Addr × Byte)) : (s.setDeviceWrites v).memMap = s.memMap := rfl
@[simp] theorem setDeviceWrites_decimalPolicy (s : State) (v : List (Addr × Byte)) : (s.setDeviceWrites v).decimalPolicy = s.decimalPolicy := rfl
@[simp] theorem setDeviceWrites_host (s : State) (v : List (Addr × Byte)) : (s.setDeviceWrites v).host = s.host := rfl
@[simp] theorem setDeviceWrites_irqHeld (s : State) (v : List (Addr × Byte)) : (s.setDeviceWrites v).irqHeld = s.irqHeld := rfl
@[simp] theorem setDeviceWrites_bus (s : State) (v : List (Addr × Byte)) : (s.setDeviceWrites v).bus = s.bus := rfl
@[simp] theorem setDeviceWrites_draws (s : State) (v : List (Addr × Byte)) : (s.setDeviceWrites v).draws = s.draws := rfl
@[simp] theorem setDeviceWrites_setDeviceWrites (s : State) (v w : List (Addr × Byte)) : (s.setDeviceWrites v).setDeviceWrites w = s.setDeviceWrites w := rfl
@[simp] theorem setDeviceWrites_self (s : State) : s.setDeviceWrites s.deviceWrites = s := rfl

@[simp] theorem setDraws_draws (s : State) (v : Nat) : (s.setDraws v).draws = v := rfl
@[simp] theorem setDraws_a (s : State) (v : Nat) : (s.setDraws v).a = s.a := rfl
@[simp] theorem setDraws_x (s : State) (v : Nat) : (s.setDraws v).x = s.x := rfl
@[simp] theorem setDraws_y (s : State) (v : Nat) : (s.setDraws v).y = s.y := rfl
@[simp] theorem setDraws_sp (s : State) (v : Nat) : (s.setDraws v).sp = s.sp := rfl
@[simp] theorem setDraws_pc (s : State) (v : Nat) : (s.setDraws v).pc = s.pc := rfl
@[simp] theorem setDraws_p (s : State) (v : Nat) : (s.setDraws v).p = s.p := rfl
@[simp] theorem setDraws_nmiPending (s : State) (v : Nat) : (s.setDraws v).nmiPending = s.nmiPending := rfl
@[simp] theorem setDraws_iWindow (s : State) (v : Nat) : (s.setDraws v).iWindow = s.iWindow := rfl
@[simp] theorem setDraws_mem (s : State) (v : Nat) : (s.setDraws v).mem = s.mem := rfl
@[simp] theorem setDraws_memMap (s : State) (v : Nat) : (s.setDraws v).memMap = s.memMap := rfl
@[simp] theorem setDraws_decimalPolicy (s : State) (v : Nat) : (s.setDraws v).decimalPolicy = s.decimalPolicy := rfl
@[simp] theorem setDraws_host (s : State) (v : Nat) : (s.setDraws v).host = s.host := rfl
@[simp] theorem setDraws_irqHeld (s : State) (v : Nat) : (s.setDraws v).irqHeld = s.irqHeld := rfl
@[simp] theorem setDraws_bus (s : State) (v : Nat) : (s.setDraws v).bus = s.bus := rfl
@[simp] theorem setDraws_deviceWrites (s : State) (v : Nat) : (s.setDraws v).deviceWrites = s.deviceWrites := rfl
@[simp] theorem setDraws_setDraws (s : State) (v w : Nat) : (s.setDraws v).setDraws w = s.setDraws w := rfl
@[simp] theorem setDraws_self (s : State) : s.setDraws s.draws = s := rfl

end Sys2Proof.Machine
end

