-- ==== Sys2Proof/Laws/Ops.lean ====
section
/-! SUPPORT. What each shared operation over memory, the stack and PC can do, said once: its result, and every field it leaves
alone. -/

namespace Sys2Proof.Machine

/-! ### What a setter leaves alone -/

@[simp] theorem setA_kindAt (s : State) (v : Byte) (b : Addr) : (s.setA v).kindAt b = s.kindAt b := rfl
@[simp] theorem setA_readable (s : State) (v : Byte) (b : Addr) : (s.setA v).readable b = s.readable b := rfl
@[simp] theorem setA_peek (s : State) (v : Byte) (b : Addr) : (s.setA v).peek b = s.peek b := rfl
@[simp] theorem setX_kindAt (s : State) (v : Byte) (b : Addr) : (s.setX v).kindAt b = s.kindAt b := rfl
@[simp] theorem setX_readable (s : State) (v : Byte) (b : Addr) : (s.setX v).readable b = s.readable b := rfl
@[simp] theorem setX_peek (s : State) (v : Byte) (b : Addr) : (s.setX v).peek b = s.peek b := rfl
@[simp] theorem setY_kindAt (s : State) (v : Byte) (b : Addr) : (s.setY v).kindAt b = s.kindAt b := rfl
@[simp] theorem setY_readable (s : State) (v : Byte) (b : Addr) : (s.setY v).readable b = s.readable b := rfl
@[simp] theorem setY_peek (s : State) (v : Byte) (b : Addr) : (s.setY v).peek b = s.peek b := rfl
@[simp] theorem setSp_kindAt (s : State) (v : Byte) (b : Addr) : (s.setSp v).kindAt b = s.kindAt b := rfl
@[simp] theorem setSp_readable (s : State) (v : Byte) (b : Addr) : (s.setSp v).readable b = s.readable b := rfl
@[simp] theorem setSp_peek (s : State) (v : Byte) (b : Addr) : (s.setSp v).peek b = s.peek b := rfl
@[simp] theorem setPc_kindAt (s : State) (v : Addr) (b : Addr) : (s.setPc v).kindAt b = s.kindAt b := rfl
@[simp] theorem setPc_readable (s : State) (v : Addr) (b : Addr) : (s.setPc v).readable b = s.readable b := rfl
@[simp] theorem setPc_peek (s : State) (v : Addr) (b : Addr) : (s.setPc v).peek b = s.peek b := rfl
@[simp] theorem setP_kindAt (s : State) (v : Flags) (b : Addr) : (s.setP v).kindAt b = s.kindAt b := rfl
@[simp] theorem setP_readable (s : State) (v : Flags) (b : Addr) : (s.setP v).readable b = s.readable b := rfl
@[simp] theorem setP_peek (s : State) (v : Flags) (b : Addr) : (s.setP v).peek b = s.peek b := rfl
@[simp] theorem setNmiPending_kindAt (s : State) (v : Bool) (b : Addr) : (s.setNmiPending v).kindAt b = s.kindAt b := rfl
@[simp] theorem setNmiPending_readable (s : State) (v : Bool) (b : Addr) : (s.setNmiPending v).readable b = s.readable b := rfl
@[simp] theorem setNmiPending_peek (s : State) (v : Bool) (b : Addr) : (s.setNmiPending v).peek b = s.peek b := rfl
@[simp] theorem setIWindow_kindAt (s : State) (v : Bool) (b : Addr) : (s.setIWindow v).kindAt b = s.kindAt b := rfl
@[simp] theorem setIWindow_readable (s : State) (v : Bool) (b : Addr) : (s.setIWindow v).readable b = s.readable b := rfl
@[simp] theorem setIWindow_peek (s : State) (v : Bool) (b : Addr) : (s.setIWindow v).peek b = s.peek b := rfl
@[simp] theorem setMem_kindAt (s : State) (v : Memory) (b : Addr) : (s.setMem v).kindAt b = s.kindAt b := rfl
@[simp] theorem setMem_readable (s : State) (v : Memory) (b : Addr) : (s.setMem v).readable b = s.readable b := rfl
@[simp] theorem setMemMap_peek (s : State) (v : List Region) (b : Addr) : (s.setMemMap v).peek b = s.peek b := rfl
@[simp] theorem setDecimalPolicy_kindAt (s : State) (v : DecimalPolicy) (b : Addr) : (s.setDecimalPolicy v).kindAt b = s.kindAt b := rfl
@[simp] theorem setDecimalPolicy_readable (s : State) (v : DecimalPolicy) (b : Addr) : (s.setDecimalPolicy v).readable b = s.readable b := rfl
@[simp] theorem setDecimalPolicy_peek (s : State) (v : DecimalPolicy) (b : Addr) : (s.setDecimalPolicy v).peek b = s.peek b := rfl
@[simp] theorem setHost_kindAt (s : State) (v : List HostInput) (b : Addr) : (s.setHost v).kindAt b = s.kindAt b := rfl
@[simp] theorem setHost_readable (s : State) (v : List HostInput) (b : Addr) : (s.setHost v).readable b = s.readable b := rfl
@[simp] theorem setHost_peek (s : State) (v : List HostInput) (b : Addr) : (s.setHost v).peek b = s.peek b := rfl
@[simp] theorem setIrqHeld_kindAt (s : State) (v : Bool) (b : Addr) : (s.setIrqHeld v).kindAt b = s.kindAt b := rfl
@[simp] theorem setIrqHeld_readable (s : State) (v : Bool) (b : Addr) : (s.setIrqHeld v).readable b = s.readable b := rfl
@[simp] theorem setIrqHeld_peek (s : State) (v : Bool) (b : Addr) : (s.setIrqHeld v).peek b = s.peek b := rfl
@[simp] theorem setBus_kindAt (s : State) (v : List (List (Addr × Byte))) (b : Addr) : (s.setBus v).kindAt b = s.kindAt b := rfl
@[simp] theorem setBus_readable (s : State) (v : List (List (Addr × Byte))) (b : Addr) : (s.setBus v).readable b = s.readable b := rfl
@[simp] theorem setBus_peek (s : State) (v : List (List (Addr × Byte))) (b : Addr) : (s.setBus v).peek b = s.peek b := rfl
@[simp] theorem setDeviceWrites_kindAt (s : State) (v : List (Addr × Byte)) (b : Addr) : (s.setDeviceWrites v).kindAt b = s.kindAt b := rfl
@[simp] theorem setDeviceWrites_readable (s : State) (v : List (Addr × Byte)) (b : Addr) : (s.setDeviceWrites v).readable b = s.readable b := rfl
@[simp] theorem setDeviceWrites_peek (s : State) (v : List (Addr × Byte)) (b : Addr) : (s.setDeviceWrites v).peek b = s.peek b := rfl
@[simp] theorem setDraws_kindAt (s : State) (v : Nat) (b : Addr) : (s.setDraws v).kindAt b = s.kindAt b := rfl
@[simp] theorem setDraws_readable (s : State) (v : Nat) (b : Addr) : (s.setDraws v).readable b = s.readable b := rfl
@[simp] theorem setDraws_peek (s : State) (v : Nat) (b : Addr) : (s.setDraws v).peek b = s.peek b := rfl

/-! ### The other bus masters -/

theorem addr_toNat_ne {a b : Addr} (h : b ≠ a) : b.toNat ≠ a.toNat := fun e => h (BitVec.eq_of_toNat_eq e)

/-- A byte another bus master writes is the one read there, if it is RAM; every other byte stays. -/
theorem Memory.byteAt_busWrite (map : List Region) (m : Memory) (w : Addr × Byte) (c : Addr) :
    Memory.byteAt (Memory.busWrite map m w) c.toNat =
      if kindOf map c.toNat = .ram ∧ w.1 = c then w.2 else Memory.byteAt m c.toNat := by
  unfold Memory.busWrite
  by_cases h : w.1 = c
  · subst h
    split <;> simp_all
  · have hne : c.toNat ≠ w.1.toNat := addr_toNat_ne (Ne.symm h)
    split <;> simp [h, Memory.byteAt_setByte_other _ _ hne]

/-- Many bytes written by other bus masters: in RAM the last one written at an address is held there. -/
theorem Memory.byteAt_busWrites (map : List Region) (ws : List (Addr × Byte)) (m : Memory) (c : Addr) :
    Memory.byteAt (ws.foldl (Memory.busWrite map) m) c.toNat =
      if kindOf map c.toNat = .ram then
        ws.foldl (fun held w => if w.1 = c then w.2 else held) (Memory.byteAt m c.toNat)
      else Memory.byteAt m c.toNat := by
  induction ws generalizing m with
  | nil => simp
  | cons w rest ih =>
    rw [List.foldl_cons, ih, Memory.byteAt_busWrite]
    by_cases hk : kindOf map c.toNat = .ram <;> simp [hk]

theorem Memory.wf_busWrite {m : Memory} (map : List Region) (w : Addr × Byte) (h : Memory.wf m = true) :
    Memory.wf (Memory.busWrite map m w) = true := by
  unfold Memory.busWrite
  split
  · exact Memory.wf_setByte w.2 h w.1.isLt
  all_goals exact h

theorem Memory.wf_busWrites {m : Memory} (map : List Region) (ws : List (Addr × Byte)) (h : Memory.wf m = true) :
    Memory.wf (ws.foldl (Memory.busWrite map) m) = true := by
  induction ws generalizing m with
  | nil => exact h
  | cons w rest ih => exact ih (Memory.wf_busWrite map w h)

@[simp] theorem busTurn_bus (s : State) : s.busTurn.bus = s.bus.tail := rfl
@[simp] theorem busTurn_a (s : State) : (s.busTurn).a = s.a := rfl
@[simp] theorem busTurn_x (s : State) : (s.busTurn).x = s.x := rfl
@[simp] theorem busTurn_y (s : State) : (s.busTurn).y = s.y := rfl
@[simp] theorem busTurn_sp (s : State) : (s.busTurn).sp = s.sp := rfl
@[simp] theorem busTurn_pc (s : State) : (s.busTurn).pc = s.pc := rfl
@[simp] theorem busTurn_p (s : State) : (s.busTurn).p = s.p := rfl
@[simp] theorem busTurn_nmiPending (s : State) : (s.busTurn).nmiPending = s.nmiPending := rfl
@[simp] theorem busTurn_iWindow (s : State) : (s.busTurn).iWindow = s.iWindow := rfl
@[simp] theorem busTurn_memMap (s : State) : (s.busTurn).memMap = s.memMap := rfl
@[simp] theorem busTurn_decimalPolicy (s : State) : (s.busTurn).decimalPolicy = s.decimalPolicy := rfl
@[simp] theorem busTurn_host (s : State) : (s.busTurn).host = s.host := rfl
@[simp] theorem busTurn_irqHeld (s : State) : (s.busTurn).irqHeld = s.irqHeld := rfl
@[simp] theorem busTurn_deviceWrites (s : State) : (s.busTurn).deviceWrites = s.deviceWrites := rfl
@[simp] theorem busTurn_draws (s : State) : (s.busTurn).draws = s.draws := rfl
@[simp] theorem busTurn_kindAt (s : State) (b : Addr) : (s.busTurn).kindAt b = s.kindAt b := by simp [State.kindAt]
@[simp] theorem busTurn_readable (s : State) (b : Addr) : (s.busTurn).readable b = s.readable b := by simp [State.readable]

/-- A turn with nothing to come changes nothing. -/
theorem busTurn_of_quiet {s : State} (h : s.bus = []) : s.busTurn = s := by
  obtain ⟨⟩ := s
  subst h
  rfl

/-- The bytes of memory after a turn. -/
theorem busTurn_peek (s : State) (c : Addr) : s.busTurn.peek c = s.byteAfter [none] c := by
  simp [State.peek, State.busTurn, State.byteAfter, traffic, Memory.byteAt_busWrites, State.kindAt]

theorem busTurn_wf {s : State} (h : s.wf = true) : s.busTurn.wf = true := Memory.wf_busWrites s.memMap (s.bus.headD []) h

@[simp] theorem busTurns_zero (s : State) : s.busTurns 0 = s := rfl

theorem busTurns_succ (s : State) (n : Nat) : s.busTurns (n + 1) = s.busTurn.busTurns n := rfl

@[simp] theorem busTurns_bus (s : State) (n : Nat) : (s.busTurns n).bus = s.bus.drop n := by
  induction n generalizing s with
  | zero => rfl
  | succ n ih => rw [busTurns_succ, ih, busTurn_bus, List.drop_tail]

/-- Turns change memory and what is to come of the other bus masters, nothing else. -/
theorem busTurns_eq (s : State) (n : Nat) : s.busTurns n = { s with mem := (s.busTurns n).mem, bus := s.bus.drop n } := by
  induction n generalizing s with
  | zero => rfl
  | succ n ih =>
    have h := ih s.busTurn
    rw [busTurn_bus, List.drop_tail] at h
    exact h

/-- Turns do not look at PC. -/
theorem busTurns_setPc (s : State) (w : Addr) (n : Nat) : (s.setPc w).busTurns n = (s.busTurns n).setPc w := by
  induction n generalizing s with
  | zero => rfl
  | succ n ih => exact ih s.busTurn

@[simp] theorem busTurns_a (s : State) (n : Nat) : (s.busTurns n).a = s.a := by rw [busTurns_eq]
@[simp] theorem busTurns_x (s : State) (n : Nat) : (s.busTurns n).x = s.x := by rw [busTurns_eq]
@[simp] theorem busTurns_y (s : State) (n : Nat) : (s.busTurns n).y = s.y := by rw [busTurns_eq]
@[simp] theorem busTurns_sp (s : State) (n : Nat) : (s.busTurns n).sp = s.sp := by rw [busTurns_eq]
@[simp] theorem busTurns_pc (s : State) (n : Nat) : (s.busTurns n).pc = s.pc := by rw [busTurns_eq]
@[simp] theorem busTurns_p (s : State) (n : Nat) : (s.busTurns n).p = s.p := by rw [busTurns_eq]
@[simp] theorem busTurns_nmiPending (s : State) (n : Nat) : (s.busTurns n).nmiPending = s.nmiPending := by rw [busTurns_eq]
@[simp] theorem busTurns_iWindow (s : State) (n : Nat) : (s.busTurns n).iWindow = s.iWindow := by rw [busTurns_eq]
@[simp] theorem busTurns_memMap (s : State) (n : Nat) : (s.busTurns n).memMap = s.memMap := by rw [busTurns_eq]
@[simp] theorem busTurns_decimalPolicy (s : State) (n : Nat) : (s.busTurns n).decimalPolicy = s.decimalPolicy := by rw [busTurns_eq]
@[simp] theorem busTurns_host (s : State) (n : Nat) : (s.busTurns n).host = s.host := by rw [busTurns_eq]
@[simp] theorem busTurns_irqHeld (s : State) (n : Nat) : (s.busTurns n).irqHeld = s.irqHeld := by rw [busTurns_eq]
@[simp] theorem busTurns_deviceWrites (s : State) (n : Nat) : (s.busTurns n).deviceWrites = s.deviceWrites := by rw [busTurns_eq]
@[simp] theorem busTurns_draws (s : State) (n : Nat) : (s.busTurns n).draws = s.draws := by rw [busTurns_eq]
@[simp] theorem busTurns_kindAt (s : State) (n : Nat) (b : Addr) : (s.busTurns n).kindAt b = s.kindAt b := by simp [State.kindAt]
@[simp] theorem busTurns_readable (s : State) (n : Nat) (b : Addr) : (s.busTurns n).readable b = s.readable b := by simp [State.readable]

theorem busTurns_of_quiet {s : State} (h : s.bus = []) (n : Nat) : s.busTurns n = s := by
  induction n with
  | zero => rfl
  | succ n ih => rw [busTurns_succ, busTurn_of_quiet h, ih]

theorem busTurns_wf {s : State} (n : Nat) (h : s.wf = true) : (s.busTurns n).wf = true := by
  induction n generalizing s with
  | zero => exact h
  | succ n ih => exact ih (busTurn_wf h)

/-! ### Sequences of accesses -/

theorem traffic_append (bus : List (List (Addr × Byte))) (xs ys : List Access) :
    traffic bus (xs ++ ys) = traffic bus xs ++ traffic (bus.drop xs.length) ys := by
  induction xs generalizing bus with
  | nil => rfl
  | cons x xs ih => simp [traffic, ih, List.append_assoc]

@[simp] theorem byteAfter_nil (s : State) (c : Addr) : s.byteAfter [] c = s.peek c := by simp [State.byteAfter, traffic]

/-- Outside RAM no byte changes. -/
theorem byteAfter_of_not_ram {s : State} {c : Addr} (h : s.kindAt c ≠ .ram) (xs : List Access) : s.byteAfter xs c = s.peek c := by
  simp [State.byteAfter, h]

/-- What a sequence of accesses leaves, by its last part: the bytes after `xs`, then `ys`. -/
theorem State.After.byteAfter {s t : State} {xs : List Access} (h : s.After t xs) (hm : t.memMap = s.memMap) (ys : List Access) (c : Addr) :
    t.byteAfter ys c = s.byteAfter (xs ++ ys) c := by
  have hk : t.kindAt c = s.kindAt c := by unfold State.kindAt; rw [hm]
  have hp := h.1 c
  unfold State.byteAfter at hp ⊢
  rw [hk, h.2.2, traffic_append, List.foldl_append, hp]
  split <;> rfl

/-- Two sequences of accesses, one after the other. -/
theorem State.After.trans {s t u : State} {xs ys : List Access} (h : s.After t xs) (hm : t.memMap = s.memMap) (h' : t.After u ys) :
    s.After u (xs ++ ys) := by
  refine ⟨fun c => (h'.1 c).trans (h.byteAfter hm ys c), ?_, ?_⟩
  · have hk : ∀ a, t.kindAt a = s.kindAt a := fun a => by unfold State.kindAt; rw [hm]
    rw [h'.2.1, h.2.1]
    simp [hk, List.filterMap_append, List.append_assoc]
  · rw [h'.2.2, h.2.2, List.drop_drop, List.length_append]

theorem State.After.byteRead {s t : State} {xs : List Access} (h : s.After t xs) (hm : t.memMap = s.memMap) (ys : List Access) (d : Nat)
    (c : Addr) : t.byteRead ys d c = s.byteRead (xs ++ ys) d c := by
  have hk : t.readable c = s.readable c := by unfold State.readable State.kindAt; rw [hm]
  unfold State.byteRead
  rw [hk, h.byteAfter hm, List.append_assoc]

theorem State.After.wordRead {s t : State} {xs : List Access} (h : s.After t xs) (hm : t.memMap = s.memMap) (ys : List Access) (d : Nat)
    (lo hi : Addr) : t.wordRead ys d lo hi = s.wordRead (xs ++ ys) d lo hi := by
  have hk : t.readable lo = s.readable lo := by unfold State.readable State.kindAt; rw [hm]
  unfold State.wordRead State.drawsFor
  rw [hk, h.byteRead hm, h.byteRead hm, List.append_assoc]

/-- A state that differs in other fields has seen the same accesses. -/
theorem State.After.congr {s t u v : State} {xs : List Access} (h : s.After t xs) (hu : u.mem = s.mem ∧ u.memMap = s.memMap ∧
    u.bus = s.bus ∧ u.deviceWrites = s.deviceWrites) (hv : v.mem = t.mem ∧ v.bus = t.bus ∧ v.deviceWrites = t.deviceWrites) :
    u.After v xs := by
  obtain ⟨h1, h2, h3⟩ := h
  have hb : ∀ c, u.byteAfter xs c = s.byteAfter xs c := fun c => by
    unfold State.byteAfter State.kindAt State.peek
    rw [hu.1, hu.2.1, hu.2.2.1]
  have hk : ∀ a, u.kindAt a = s.kindAt a := fun a => by unfold State.kindAt; rw [hu.2.1]
  refine ⟨fun c => ?_, ?_, ?_⟩
  · rw [hb, ← h1 c]; unfold State.peek; rw [hv.1]
  · rw [hv.2.2, hu.2.2.2, h2]; simp [hk]
  · rw [hv.2.1, hu.2.2.1, h3]

/-- No access: nothing changes. -/
theorem after_refl (s : State) : s.After s [] := ⟨fun c => (byteAfter_nil s c).symm, by simp, rfl⟩

/-- The turn of a read. -/
theorem busTurn_after (s : State) : s.After s.busTurn [none] := ⟨busTurn_peek s, by simp, by simp⟩

/-- The turns of a sequence of reads. -/
theorem busTurns_after (s : State) (n : Nat) : s.After (s.busTurns n) (reads n) := by
  induction n generalizing s with
  | zero => exact after_refl s
  | succ n ih => exact (busTurn_after s).trans rfl (ih s.busTurn)

theorem busTurns_peek (s : State) (n : Nat) (c : Addr) : (s.busTurns n).peek c = s.byteAfter (reads n) c := (busTurns_after s n).1 c

theorem foldl_untouched {c : Addr} (ws : List (Addr × Byte)) (v : Byte) (h : ∀ w ∈ ws, w.1 ≠ c) :
    ws.foldl (fun held w => if w.1 = c then w.2 else held) v = v := by
  induction ws with
  | nil => rfl
  | cons w rest ih =>
    rw [List.foldl_cons, if_neg (h w (by simp)), ih (fun x hx => h x (by simp [hx]))]

/-- A byte the other bus masters do not write stays through their turns. -/
theorem busTurns_peek_untouched {s : State} {c : Addr} (h : s.Untouched c) (n : Nat) : (s.busTurns n).peek c = s.peek c := by
  induction n generalizing s with
  | zero => rfl
  | succ n ih =>
    have ht : s.busTurn.Untouched c := fun turn hturn => h turn (List.mem_of_mem_tail hturn)
    rw [busTurns_succ, ih ht, busTurn_peek]
    unfold State.byteAfter
    split
    · refine foldl_untouched _ _ ?_
      intro w hw
      cases hb : s.bus with
      | nil => simp [traffic, hb] at hw
      | cons turn rest => exact h turn (by simp [hb]) w (by simpa [traffic, hb] using hw)
    · rfl

/-! ### One-byte reads -/

/-- A read in full: the byte, the bus masters' turn, and the draw counter. -/
theorem memRead_eq (s : State) (a : Addr) :
    s.memRead a = (s.byteRead [] s.draws a, s.busTurn.setDraws (s.draws + s.drawsFor a)) := by
  unfold State.memRead State.byteRead State.drawsFor State.readable
  simp only [busTurn_kindAt, List.nil_append, ← busTurn_peek]
  split <;> simp_all <;> rfl

/-- A read of memory gives the byte it holds after the bus masters' turn. -/
theorem memRead_of_readable {s : State} {a : Addr} (h : s.readable a = true) : s.memRead a = (s.busTurn.peek a, s.busTurn) := by
  rw [memRead_eq, busTurn_peek]
  simp only [State.byteRead, State.drawsFor, h, if_true, List.nil_append, Nat.add_zero]
  rfl

/-- A read of a `device` or `unmapped` address gives the next free byte and uses it up. -/
theorem memRead_of_not_readable {s : State} {a : Addr} (h : s.readable a = false) :
    s.memRead a = (Config.openBusByte s.draws, s.busTurn.setDraws (s.draws + 1)) := by
  rw [memRead_eq]
  simp [State.byteRead, State.drawsFor, h]

/-- After a read: the bus masters' turn, and the draw counter. -/
theorem memRead_state (s : State) (a : Addr) : ∃ k, (s.memRead a).2 = s.busTurn.setDraws k :=
  ⟨s.draws + s.drawsFor a, by rw [memRead_eq]⟩

/-- What is read, by whatever was accessed before. -/
theorem memRead_after (s : State) (a : Addr) : s.After (s.memRead a).2 [none] :=
  (busTurn_after s).congr ⟨rfl, rfl, rfl, rfl⟩ (by rw [memRead_eq]; exact ⟨rfl, rfl, rfl⟩)

@[simp] theorem memRead_a (s : State) (a : Addr) : ((s.memRead a).2).a = s.a := by
  obtain ⟨k, h⟩ := memRead_state s a
  rw [h]; rfl
@[simp] theorem memRead_x (s : State) (a : Addr) : ((s.memRead a).2).x = s.x := by
  obtain ⟨k, h⟩ := memRead_state s a
  rw [h]; rfl
@[simp] theorem memRead_y (s : State) (a : Addr) : ((s.memRead a).2).y = s.y := by
  obtain ⟨k, h⟩ := memRead_state s a
  rw [h]; rfl
@[simp] theorem memRead_sp (s : State) (a : Addr) : ((s.memRead a).2).sp = s.sp := by
  obtain ⟨k, h⟩ := memRead_state s a
  rw [h]; rfl
@[simp] theorem memRead_pc (s : State) (a : Addr) : ((s.memRead a).2).pc = s.pc := by
  obtain ⟨k, h⟩ := memRead_state s a
  rw [h]; rfl
@[simp] theorem memRead_p (s : State) (a : Addr) : ((s.memRead a).2).p = s.p := by
  obtain ⟨k, h⟩ := memRead_state s a
  rw [h]; rfl
@[simp] theorem memRead_nmiPending (s : State) (a : Addr) : ((s.memRead a).2).nmiPending = s.nmiPending := by
  obtain ⟨k, h⟩ := memRead_state s a
  rw [h]; rfl
@[simp] theorem memRead_iWindow (s : State) (a : Addr) : ((s.memRead a).2).iWindow = s.iWindow := by
  obtain ⟨k, h⟩ := memRead_state s a
  rw [h]; rfl
@[simp] theorem memRead_memMap (s : State) (a : Addr) : ((s.memRead a).2).memMap = s.memMap := by
  obtain ⟨k, h⟩ := memRead_state s a
  rw [h]; rfl
@[simp] theorem memRead_decimalPolicy (s : State) (a : Addr) : ((s.memRead a).2).decimalPolicy = s.decimalPolicy := by
  obtain ⟨k, h⟩ := memRead_state s a
  rw [h]; rfl
@[simp] theorem memRead_host (s : State) (a : Addr) : ((s.memRead a).2).host = s.host := by
  obtain ⟨k, h⟩ := memRead_state s a
  rw [h]; rfl
@[simp] theorem memRead_irqHeld (s : State) (a : Addr) : ((s.memRead a).2).irqHeld = s.irqHeld := by
  obtain ⟨k, h⟩ := memRead_state s a
  rw [h]; rfl
@[simp] theorem memRead_deviceWrites (s : State) (a : Addr) : ((s.memRead a).2).deviceWrites = s.deviceWrites := by
  obtain ⟨k, h⟩ := memRead_state s a
  rw [h]; rfl
@[simp] theorem memRead_kindAt (s : State) (a : Addr) (b : Addr) : ((s.memRead a).2).kindAt b = s.kindAt b := by simp [State.kindAt]
@[simp] theorem memRead_readable (s : State) (a : Addr) (b : Addr) : ((s.memRead a).2).readable b = s.readable b := by simp [State.readable]

/-! ### One-byte writes -/

/-- A write by the kind of region, after the bus masters' turn: RAM stores, a device records, the rest ignore it. -/
theorem memWrite_cases (s : State) (a : Addr) (v : Byte) :
    (s.kindAt a = .ram ∧ s.memWrite a v = s.busTurn.setMem (Memory.setByte s.busTurn.mem a.toNat v)) ∨
    (s.kindAt a = .device ∧ s.memWrite a v = s.busTurn.setDeviceWrites (s.deviceWrites ++ [(a, v)])) ∨
    ((s.kindAt a = .rom ∨ s.kindAt a = .unmapped) ∧ s.memWrite a v = s.busTurn) := by
  unfold State.memWrite
  simp only [busTurn_kindAt]
  split <;> simp_all [State.poke]

@[simp] theorem memWrite_a (s : State) (a : Addr) (v : Byte) : (s.memWrite a v).a = s.a := by
  unfold State.memWrite
  dsimp only
  split <;> rfl
@[simp] theorem memWrite_x (s : State) (a : Addr) (v : Byte) : (s.memWrite a v).x = s.x := by
  unfold State.memWrite
  dsimp only
  split <;> rfl
@[simp] theorem memWrite_y (s : State) (a : Addr) (v : Byte) : (s.memWrite a v).y = s.y := by
  unfold State.memWrite
  dsimp only
  split <;> rfl
@[simp] theorem memWrite_sp (s : State) (a : Addr) (v : Byte) : (s.memWrite a v).sp = s.sp := by
  unfold State.memWrite
  dsimp only
  split <;> rfl
@[simp] theorem memWrite_pc (s : State) (a : Addr) (v : Byte) : (s.memWrite a v).pc = s.pc := by
  unfold State.memWrite
  dsimp only
  split <;> rfl
@[simp] theorem memWrite_p (s : State) (a : Addr) (v : Byte) : (s.memWrite a v).p = s.p := by
  unfold State.memWrite
  dsimp only
  split <;> rfl
@[simp] theorem memWrite_nmiPending (s : State) (a : Addr) (v : Byte) : (s.memWrite a v).nmiPending = s.nmiPending := by
  unfold State.memWrite
  dsimp only
  split <;> rfl
@[simp] theorem memWrite_iWindow (s : State) (a : Addr) (v : Byte) : (s.memWrite a v).iWindow = s.iWindow := by
  unfold State.memWrite
  dsimp only
  split <;> rfl
@[simp] theorem memWrite_memMap (s : State) (a : Addr) (v : Byte) : (s.memWrite a v).memMap = s.memMap := by
  unfold State.memWrite
  dsimp only
  split <;> rfl
@[simp] theorem memWrite_decimalPolicy (s : State) (a : Addr) (v : Byte) : (s.memWrite a v).decimalPolicy = s.decimalPolicy := by
  unfold State.memWrite
  dsimp only
  split <;> rfl
@[simp] theorem memWrite_host (s : State) (a : Addr) (v : Byte) : (s.memWrite a v).host = s.host := by
  unfold State.memWrite
  dsimp only
  split <;> rfl
@[simp] theorem memWrite_irqHeld (s : State) (a : Addr) (v : Byte) : (s.memWrite a v).irqHeld = s.irqHeld := by
  unfold State.memWrite
  dsimp only
  split <;> rfl
@[simp] theorem memWrite_draws (s : State) (a : Addr) (v : Byte) : (s.memWrite a v).draws = s.draws := by
  unfold State.memWrite
  dsimp only
  split <;> rfl
@[simp] theorem memWrite_kindAt (s : State) (a : Addr) (v : Byte) (b : Addr) : (s.memWrite a v).kindAt b = s.kindAt b := by simp [State.kindAt]
@[simp] theorem memWrite_readable (s : State) (a : Addr) (v : Byte) (b : Addr) : (s.memWrite a v).readable b = s.readable b := by simp [State.readable]

@[simp] theorem memWrite_bus (s : State) (a : Addr) (v : Byte) : (s.memWrite a v).bus = s.bus.tail := by
  unfold State.memWrite
  dsimp only
  split <;> rfl

/-- The bytes of memory after a write: the bus masters' turn, then RAM takes the byte. -/
theorem memWrite_peek (s : State) (a : Addr) (v : Byte) (b : Addr) :
    (s.memWrite a v).peek b = if b = a ∧ s.kindAt a = .ram then v else s.busTurn.peek b := by
  rcases memWrite_cases s a v with ⟨hk, hw⟩ | ⟨hk, hw⟩ | ⟨hk, hw⟩
  · rw [hw]
    by_cases h : b = a
    · simp [State.peek, h, hk]
    · simp [State.peek, h, Memory.byteAt_setByte_other _ _ (addr_toNat_ne h)]
  · simp [hw, hk]
  · rcases hk with hk | hk <;> simp [hw, hk]

/-- The device log after a write. -/
theorem memWrite_deviceWrites (s : State) (a : Addr) (v : Byte) :
    (s.memWrite a v).deviceWrites = s.deviceWrites ++ if s.kindAt a = .device then [(a, v)] else [] := by
  rcases memWrite_cases s a v with ⟨hk, hw⟩ | ⟨hk, hw⟩ | ⟨hk, hw⟩
  · simp [hw, hk]
  · simp [hw, hk]
  · rcases hk with hk | hk <;> simp [hw, hk]

/-- What a write leaves, in one statement. -/
theorem memWrite_after (s : State) (a : Addr) (v : Byte) : s.After (s.memWrite a v) [some (a, v)] := by
  refine ⟨fun c => ?_, ?_, by simp⟩
  · rw [memWrite_peek, busTurn_peek]
    unfold State.byteAfter
    by_cases hc : c = a
    · subst hc
      by_cases hk : s.kindAt c = .ram <;> simp [hk, traffic]
    · have : a ≠ c := fun e => hc e.symm
      simp [hc, this, traffic]
  · rw [memWrite_deviceWrites]
    by_cases hk : s.kindAt a = .device <;> simp [hk]

/-- A write keeps the canonical form of memory. -/
theorem memWrite_wf {s : State} (a : Addr) (v : Byte) (h : s.wf = true) : (s.memWrite a v).wf = true := by
  rcases memWrite_cases s a v with ⟨_, hw⟩ | ⟨_, hw⟩ | ⟨_, hw⟩ <;> rw [hw]
  · exact Memory.wf_setByte v (busTurn_wf h) a.isLt
  · exact busTurn_wf h
  · exact busTurn_wf h

/-! ### Pairs of reads -/

/-- A pair of reads in full: low byte at the first address, high byte at the second. -/
theorem readPair_eq (s : State) (a b : Addr) :
    s.readPair a b =
      (joinBytes (s.byteRead [none] (s.draws + s.drawsFor a) b) (s.byteRead [] s.draws a),
        (s.busTurns 2).setDraws (s.draws + s.drawsFor a + s.drawsFor b)) := by
  have hr : (s.busTurn.setDraws (s.draws + s.drawsFor a)).byteRead [] (s.draws + s.drawsFor a) b =
      s.byteRead [none] (s.draws + s.drawsFor a) b :=
    State.After.byteRead ((busTurn_after s).congr (v := s.busTurn.setDraws (s.draws + s.drawsFor a)) ⟨rfl, rfl, rfl, rfl⟩ ⟨rfl, rfl, rfl⟩) rfl [] _ b
  unfold State.readPair
  simp only [memRead_eq, setDraws_draws, hr]
  rfl

/-- A pair of reads: the bus masters' two turns, and the draw counter. -/
theorem readPair_state (s : State) (a b : Addr) : ∃ k, (s.readPair a b).2 = (s.busTurns 2).setDraws k :=
  ⟨s.draws + s.drawsFor a + s.drawsFor b, by rw [readPair_eq]⟩

/-- The number a pair of reads gives. -/
theorem readPair_toNat (s : State) (a b : Addr) : (s.readPair a b).1.toNat = s.wordRead [] s.draws a b := by
  rw [readPair_eq, joinBytes_toNat]
  rfl

theorem readPair_after (s : State) (a b : Addr) : s.After (s.readPair a b).2 (reads 2) :=
  (busTurns_after s 2).congr ⟨rfl, rfl, rfl, rfl⟩ (by rw [readPair_eq]; exact ⟨rfl, rfl, rfl⟩)

@[simp] theorem readPair_a (s : State) (c d : Addr) : ((s.readPair c d).2).a = s.a := by
  obtain ⟨k, h⟩ := readPair_state s c d
  rw [h]; rfl
@[simp] theorem readPair_x (s : State) (c d : Addr) : ((s.readPair c d).2).x = s.x := by
  obtain ⟨k, h⟩ := readPair_state s c d
  rw [h]; rfl
@[simp] theorem readPair_y (s : State) (c d : Addr) : ((s.readPair c d).2).y = s.y := by
  obtain ⟨k, h⟩ := readPair_state s c d
  rw [h]; rfl
@[simp] theorem readPair_sp (s : State) (c d : Addr) : ((s.readPair c d).2).sp = s.sp := by
  obtain ⟨k, h⟩ := readPair_state s c d
  rw [h]; rfl
@[simp] theorem readPair_pc (s : State) (c d : Addr) : ((s.readPair c d).2).pc = s.pc := by
  obtain ⟨k, h⟩ := readPair_state s c d
  rw [h]; rfl
@[simp] theorem readPair_p (s : State) (c d : Addr) : ((s.readPair c d).2).p = s.p := by
  obtain ⟨k, h⟩ := readPair_state s c d
  rw [h]; rfl
@[simp] theorem readPair_nmiPending (s : State) (c d : Addr) : ((s.readPair c d).2).nmiPending = s.nmiPending := by
  obtain ⟨k, h⟩ := readPair_state s c d
  rw [h]; rfl
@[simp] theorem readPair_iWindow (s : State) (c d : Addr) : ((s.readPair c d).2).iWindow = s.iWindow := by
  obtain ⟨k, h⟩ := readPair_state s c d
  rw [h]; rfl
@[simp] theorem readPair_memMap (s : State) (c d : Addr) : ((s.readPair c d).2).memMap = s.memMap := by
  obtain ⟨k, h⟩ := readPair_state s c d
  rw [h]; rfl
@[simp] theorem readPair_decimalPolicy (s : State) (c d : Addr) : ((s.readPair c d).2).decimalPolicy = s.decimalPolicy := by
  obtain ⟨k, h⟩ := readPair_state s c d
  rw [h]; rfl
@[simp] theorem readPair_host (s : State) (c d : Addr) : ((s.readPair c d).2).host = s.host := by
  obtain ⟨k, h⟩ := readPair_state s c d
  rw [h]; rfl
@[simp] theorem readPair_irqHeld (s : State) (c d : Addr) : ((s.readPair c d).2).irqHeld = s.irqHeld := by
  obtain ⟨k, h⟩ := readPair_state s c d
  rw [h]; rfl
@[simp] theorem readPair_deviceWrites (s : State) (c d : Addr) : ((s.readPair c d).2).deviceWrites = s.deviceWrites := by
  obtain ⟨k, h⟩ := readPair_state s c d
  rw [h]; rfl
@[simp] theorem readPair_kindAt (s : State) (c d : Addr) (b : Addr) : ((s.readPair c d).2).kindAt b = s.kindAt b := by simp [State.kindAt]
@[simp] theorem readPair_readable (s : State) (c d : Addr) (b : Addr) : ((s.readPair c d).2).readable b = s.readable b := by simp [State.readable]

@[simp] theorem read16_a (s : State) (a : Addr) : ((s.read16 a).2).a = s.a := by simp [State.read16]
@[simp] theorem read16_x (s : State) (a : Addr) : ((s.read16 a).2).x = s.x := by simp [State.read16]
@[simp] theorem read16_y (s : State) (a : Addr) : ((s.read16 a).2).y = s.y := by simp [State.read16]
@[simp] theorem read16_sp (s : State) (a : Addr) : ((s.read16 a).2).sp = s.sp := by simp [State.read16]
@[simp] theorem read16_pc (s : State) (a : Addr) : ((s.read16 a).2).pc = s.pc := by simp [State.read16]
@[simp] theorem read16_p (s : State) (a : Addr) : ((s.read16 a).2).p = s.p := by simp [State.read16]
@[simp] theorem read16_nmiPending (s : State) (a : Addr) : ((s.read16 a).2).nmiPending = s.nmiPending := by simp [State.read16]
@[simp] theorem read16_iWindow (s : State) (a : Addr) : ((s.read16 a).2).iWindow = s.iWindow := by simp [State.read16]
@[simp] theorem read16_memMap (s : State) (a : Addr) : ((s.read16 a).2).memMap = s.memMap := by simp [State.read16]
@[simp] theorem read16_decimalPolicy (s : State) (a : Addr) : ((s.read16 a).2).decimalPolicy = s.decimalPolicy := by simp [State.read16]
@[simp] theorem read16_host (s : State) (a : Addr) : ((s.read16 a).2).host = s.host := by simp [State.read16]
@[simp] theorem read16_irqHeld (s : State) (a : Addr) : ((s.read16 a).2).irqHeld = s.irqHeld := by simp [State.read16]
@[simp] theorem read16_deviceWrites (s : State) (a : Addr) : ((s.read16 a).2).deviceWrites = s.deviceWrites := by simp [State.read16]
@[simp] theorem read16_kindAt (s : State) (a : Addr) (b : Addr) : ((s.read16 a).2).kindAt b = s.kindAt b := by simp [State.kindAt]
@[simp] theorem read16_readable (s : State) (a : Addr) (b : Addr) : ((s.read16 a).2).readable b = s.readable b := by simp [State.readable]

theorem read16_state (s : State) (a : Addr) : ∃ k, (s.read16 a).2 = (s.busTurns 2).setDraws k := readPair_state s a (a + 1)

theorem read16_toNat (s : State) (a : Addr) : (s.read16 a).1.toNat = s.wordRead [] s.draws a (a + 1) := readPair_toNat s a (a + 1)

theorem read16_after (s : State) (a : Addr) : s.After (s.read16 a).2 (reads 2) := readPair_after s a (a + 1)

theorem readPair_wf {s : State} (a b : Addr) (h : s.wf = true) : (s.readPair a b).2.wf = true := by
  rw [readPair_eq]
  exact busTurns_wf 2 h

theorem read16_wf {s : State} (a : Addr) (h : s.wf = true) : (s.read16 a).2.wf = true := readPair_wf a (a + 1) h

/-! ### PC and the stack -/

@[simp] theorem advance_pc (s : State) (n : Nat) : (s.advance n).pc = s.pc + BitVec.ofNat 16 n := rfl
@[simp] theorem advance_a (s : State) (n : Nat) : (s.advance n).a = s.a := rfl
@[simp] theorem advance_x (s : State) (n : Nat) : (s.advance n).x = s.x := rfl
@[simp] theorem advance_y (s : State) (n : Nat) : (s.advance n).y = s.y := rfl
@[simp] theorem advance_sp (s : State) (n : Nat) : (s.advance n).sp = s.sp := rfl
@[simp] theorem advance_p (s : State) (n : Nat) : (s.advance n).p = s.p := rfl
@[simp] theorem advance_nmiPending (s : State) (n : Nat) : (s.advance n).nmiPending = s.nmiPending := rfl
@[simp] theorem advance_iWindow (s : State) (n : Nat) : (s.advance n).iWindow = s.iWindow := rfl
@[simp] theorem advance_mem (s : State) (n : Nat) : (s.advance n).mem = s.mem := rfl
@[simp] theorem advance_memMap (s : State) (n : Nat) : (s.advance n).memMap = s.memMap := rfl
@[simp] theorem advance_decimalPolicy (s : State) (n : Nat) : (s.advance n).decimalPolicy = s.decimalPolicy := rfl
@[simp] theorem advance_host (s : State) (n : Nat) : (s.advance n).host = s.host := rfl
@[simp] theorem advance_irqHeld (s : State) (n : Nat) : (s.advance n).irqHeld = s.irqHeld := rfl
@[simp] theorem advance_bus (s : State) (n : Nat) : (s.advance n).bus = s.bus := rfl
@[simp] theorem advance_deviceWrites (s : State) (n : Nat) : (s.advance n).deviceWrites = s.deviceWrites := rfl
@[simp] theorem advance_draws (s : State) (n : Nat) : (s.advance n).draws = s.draws := rfl
@[simp] theorem advance_kindAt (s : State) (n : Nat) (b : Addr) : (s.advance n).kindAt b = s.kindAt b := by simp [State.kindAt]
@[simp] theorem advance_readable (s : State) (n : Nat) (b : Addr) : (s.advance n).readable b = s.readable b := by simp [State.readable]
@[simp] theorem advance_peek (s : State) (n : Nat) (b : Addr) : (s.advance n).peek b = s.peek b := by simp [State.peek]

/-- A push in full: the byte written at the stack location, SP one lower. -/
theorem push8_eq (s : State) (v : Byte) : s.push8 v = (s.memWrite (stackAddr s.sp) v).setSp (s.sp - 1) := by
  simp [State.push8]

@[simp] theorem push8_sp (s : State) (v : Byte) : (s.push8 v).sp = s.sp - 1 := by simp [push8_eq]
@[simp] theorem push8_a (s : State) (v : Byte) : (s.push8 v).a = s.a := by simp [push8_eq]
@[simp] theorem push8_x (s : State) (v : Byte) : (s.push8 v).x = s.x := by simp [push8_eq]
@[simp] theorem push8_y (s : State) (v : Byte) : (s.push8 v).y = s.y := by simp [push8_eq]
@[simp] theorem push8_pc (s : State) (v : Byte) : (s.push8 v).pc = s.pc := by simp [push8_eq]
@[simp] theorem push8_p (s : State) (v : Byte) : (s.push8 v).p = s.p := by simp [push8_eq]
@[simp] theorem push8_nmiPending (s : State) (v : Byte) : (s.push8 v).nmiPending = s.nmiPending := by simp [push8_eq]
@[simp] theorem push8_iWindow (s : State) (v : Byte) : (s.push8 v).iWindow = s.iWindow := by simp [push8_eq]
@[simp] theorem push8_memMap (s : State) (v : Byte) : (s.push8 v).memMap = s.memMap := by simp [push8_eq]
@[simp] theorem push8_decimalPolicy (s : State) (v : Byte) : (s.push8 v).decimalPolicy = s.decimalPolicy := by simp [push8_eq]
@[simp] theorem push8_host (s : State) (v : Byte) : (s.push8 v).host = s.host := by simp [push8_eq]
@[simp] theorem push8_irqHeld (s : State) (v : Byte) : (s.push8 v).irqHeld = s.irqHeld := by simp [push8_eq]
@[simp] theorem push8_draws (s : State) (v : Byte) : (s.push8 v).draws = s.draws := by simp [push8_eq]
@[simp] theorem push8_kindAt (s : State) (v : Byte) (b : Addr) : (s.push8 v).kindAt b = s.kindAt b := by simp [State.kindAt]
@[simp] theorem push8_readable (s : State) (v : Byte) (b : Addr) : (s.push8 v).readable b = s.readable b := by simp [State.readable]

theorem push8_after (s : State) (v : Byte) : s.After (s.push8 v) [some (stackAddr s.sp, v)] :=
  (memWrite_after s (stackAddr s.sp) v).congr ⟨rfl, rfl, rfl, rfl⟩ (by rw [push8_eq]; exact ⟨rfl, rfl, rfl⟩)

theorem push8_wf {s : State} (v : Byte) (h : s.wf = true) : (s.push8 v).wf = true := by
  rw [push8_eq]
  exact memWrite_wf (stackAddr s.sp) v h

/-- A pull in full: SP one higher, the byte read there. -/
theorem pull8_eq (s : State) :
    s.pull8 = (s.byteRead [] s.draws (stackAddr (s.sp + 1)),
      (s.busTurn.setSp (s.sp + 1)).setDraws (s.draws + s.drawsFor (stackAddr (s.sp + 1)))) := by
  unfold State.pull8
  rw [memRead_eq]
  rfl

theorem pull8_state (s : State) : ∃ k, s.pull8.2 = (s.busTurn.setSp (s.sp + 1)).setDraws k := ⟨_, by rw [pull8_eq]⟩

@[simp] theorem pull8_sp (s : State) : s.pull8.2.sp = s.sp + 1 := by
  obtain ⟨k, h⟩ := pull8_state s
  rw [h]; rfl
@[simp] theorem pull8_a (s : State) : (s.pull8.2).a = s.a := by
  obtain ⟨k, h⟩ := pull8_state s
  rw [h]; rfl
@[simp] theorem pull8_x (s : State) : (s.pull8.2).x = s.x := by
  obtain ⟨k, h⟩ := pull8_state s
  rw [h]; rfl
@[simp] theorem pull8_y (s : State) : (s.pull8.2).y = s.y := by
  obtain ⟨k, h⟩ := pull8_state s
  rw [h]; rfl
@[simp] theorem pull8_pc (s : State) : (s.pull8.2).pc = s.pc := by
  obtain ⟨k, h⟩ := pull8_state s
  rw [h]; rfl
@[simp] theorem pull8_p (s : State) : (s.pull8.2).p = s.p := by
  obtain ⟨k, h⟩ := pull8_state s
  rw [h]; rfl
@[simp] theorem pull8_nmiPending (s : State) : (s.pull8.2).nmiPending = s.nmiPending := by
  obtain ⟨k, h⟩ := pull8_state s
  rw [h]; rfl
@[simp] theorem pull8_iWindow (s : State) : (s.pull8.2).iWindow = s.iWindow := by
  obtain ⟨k, h⟩ := pull8_state s
  rw [h]; rfl
@[simp] theorem pull8_memMap (s : State) : (s.pull8.2).memMap = s.memMap := by
  obtain ⟨k, h⟩ := pull8_state s
  rw [h]; rfl
@[simp] theorem pull8_decimalPolicy (s : State) : (s.pull8.2).decimalPolicy = s.decimalPolicy := by
  obtain ⟨k, h⟩ := pull8_state s
  rw [h]; rfl
@[simp] theorem pull8_host (s : State) : (s.pull8.2).host = s.host := by
  obtain ⟨k, h⟩ := pull8_state s
  rw [h]; rfl
@[simp] theorem pull8_irqHeld (s : State) : (s.pull8.2).irqHeld = s.irqHeld := by
  obtain ⟨k, h⟩ := pull8_state s
  rw [h]; rfl
@[simp] theorem pull8_deviceWrites (s : State) : (s.pull8.2).deviceWrites = s.deviceWrites := by
  obtain ⟨k, h⟩ := pull8_state s
  rw [h]; rfl
@[simp] theorem pull8_kindAt (s : State) (b : Addr) : (s.pull8.2).kindAt b = s.kindAt b := by simp [State.kindAt]
@[simp] theorem pull8_readable (s : State) (b : Addr) : (s.pull8.2).readable b = s.readable b := by simp [State.readable]

@[simp] theorem push16_sp (s : State) (w : Addr) : (s.push16 w).sp = s.sp - 1 - 1 := by simp [State.push16]
@[simp] theorem push16_a (s : State) (w : Addr) : (s.push16 w).a = s.a := by simp [State.push16]
@[simp] theorem push16_x (s : State) (w : Addr) : (s.push16 w).x = s.x := by simp [State.push16]
@[simp] theorem push16_y (s : State) (w : Addr) : (s.push16 w).y = s.y := by simp [State.push16]
@[simp] theorem push16_pc (s : State) (w : Addr) : (s.push16 w).pc = s.pc := by simp [State.push16]
@[simp] theorem push16_p (s : State) (w : Addr) : (s.push16 w).p = s.p := by simp [State.push16]
@[simp] theorem push16_nmiPending (s : State) (w : Addr) : (s.push16 w).nmiPending = s.nmiPending := by simp [State.push16]
@[simp] theorem push16_iWindow (s : State) (w : Addr) : (s.push16 w).iWindow = s.iWindow := by simp [State.push16]
@[simp] theorem push16_memMap (s : State) (w : Addr) : (s.push16 w).memMap = s.memMap := by simp [State.push16]
@[simp] theorem push16_decimalPolicy (s : State) (w : Addr) : (s.push16 w).decimalPolicy = s.decimalPolicy := by simp [State.push16]
@[simp] theorem push16_host (s : State) (w : Addr) : (s.push16 w).host = s.host := by simp [State.push16]
@[simp] theorem push16_irqHeld (s : State) (w : Addr) : (s.push16 w).irqHeld = s.irqHeld := by simp [State.push16]
@[simp] theorem push16_draws (s : State) (w : Addr) : (s.push16 w).draws = s.draws := by simp [State.push16]
@[simp] theorem push16_kindAt (s : State) (w : Addr) (b : Addr) : (s.push16 w).kindAt b = s.kindAt b := by simp [State.kindAt]
@[simp] theorem push16_readable (s : State) (w : Addr) (b : Addr) : (s.push16 w).readable b = s.readable b := by simp [State.readable]

theorem push16_after (s : State) (w : Addr) :
    s.After (s.push16 w) [some (stackAddr s.sp, highByte w), some (stackAddr (s.sp - 1), lowByte w)] := by
  have h := (push8_after s (highByte w)).trans (push8_memMap s (highByte w)) (push8_after (s.push8 (highByte w)) (lowByte w))
  rwa [push8_sp] at h

theorem push16_wf {s : State} (w : Addr) (h : s.wf = true) : (s.push16 w).wf = true := push8_wf _ (push8_wf _ h)

theorem pull16_eq (s : State) : s.pull16 = (joinBytes s.pull8.2.pull8.1 s.pull8.1, s.pull8.2.pull8.2) := rfl

/-- Two pulls in full: SP two higher, low byte first. -/
theorem pull16_full (s : State) :
    s.pull16 = (joinBytes
        (s.byteRead [none] (s.draws + s.drawsFor (stackAddr (s.sp + 1))) (stackAddr (s.sp + 1 + 1)))
        (s.byteRead [] s.draws (stackAddr (s.sp + 1))),
      ((s.busTurns 2).setSp (s.sp + 1 + 1)).setDraws
        (s.draws + s.drawsFor (stackAddr (s.sp + 1)) + s.drawsFor (stackAddr (s.sp + 1 + 1)))) := by
  have hr := fun (t : State) (d : Nat) (c : Addr)
    (ht : t = (s.busTurn.setSp (s.sp + 1)).setDraws (s.draws + s.drawsFor (stackAddr (s.sp + 1)))) =>
      State.After.byteRead ((busTurn_after s).congr (v := t) ⟨rfl, rfl, rfl, rfl⟩ (by subst ht; exact ⟨rfl, rfl, rfl⟩)) (by subst ht; rfl) [] d c
  rw [pull16_eq, pull8_eq, pull8_eq s]
  simp only [hr _ _ _ rfl]
  rfl

theorem pull16_toNat (s : State) :
    s.pull16.1.toNat = s.wordRead [] s.draws (stackAddr (s.sp + 1)) (stackAddr (s.sp + 1 + 1)) := by
  rw [pull16_full, joinBytes_toNat]
  rfl

theorem pull16_state (s : State) : ∃ k, s.pull16.2 = ((s.busTurns 2).setSp (s.sp + 1 + 1)).setDraws k := ⟨_, by rw [pull16_full]⟩

@[simp] theorem pull16_sp (s : State) : s.pull16.2.sp = s.sp + 1 + 1 := by
  obtain ⟨k, h⟩ := pull16_state s
  rw [h]; rfl
@[simp] theorem pull16_a (s : State) : (s.pull16.2).a = s.a := by
  obtain ⟨k, h⟩ := pull16_state s
  rw [h]; rfl
@[simp] theorem pull16_x (s : State) : (s.pull16.2).x = s.x := by
  obtain ⟨k, h⟩ := pull16_state s
  rw [h]; rfl
@[simp] theorem pull16_y (s : State) : (s.pull16.2).y = s.y := by
  obtain ⟨k, h⟩ := pull16_state s
  rw [h]; rfl
@[simp] theorem pull16_pc (s : State) : (s.pull16.2).pc = s.pc := by
  obtain ⟨k, h⟩ := pull16_state s
  rw [h]; rfl
@[simp] theorem pull16_p (s : State) : (s.pull16.2).p = s.p := by
  obtain ⟨k, h⟩ := pull16_state s
  rw [h]; rfl
@[simp] theorem pull16_nmiPending (s : State) : (s.pull16.2).nmiPending = s.nmiPending := by
  obtain ⟨k, h⟩ := pull16_state s
  rw [h]; rfl
@[simp] theorem pull16_iWindow (s : State) : (s.pull16.2).iWindow = s.iWindow := by
  obtain ⟨k, h⟩ := pull16_state s
  rw [h]; rfl
@[simp] theorem pull16_memMap (s : State) : (s.pull16.2).memMap = s.memMap := by
  obtain ⟨k, h⟩ := pull16_state s
  rw [h]; rfl
@[simp] theorem pull16_decimalPolicy (s : State) : (s.pull16.2).decimalPolicy = s.decimalPolicy := by
  obtain ⟨k, h⟩ := pull16_state s
  rw [h]; rfl
@[simp] theorem pull16_host (s : State) : (s.pull16.2).host = s.host := by
  obtain ⟨k, h⟩ := pull16_state s
  rw [h]; rfl
@[simp] theorem pull16_irqHeld (s : State) : (s.pull16.2).irqHeld = s.irqHeld := by
  obtain ⟨k, h⟩ := pull16_state s
  rw [h]; rfl
@[simp] theorem pull16_deviceWrites (s : State) : (s.pull16.2).deviceWrites = s.deviceWrites := by
  obtain ⟨k, h⟩ := pull16_state s
  rw [h]; rfl
@[simp] theorem pull16_kindAt (s : State) (b : Addr) : (s.pull16.2).kindAt b = s.kindAt b := by simp [State.kindAt]
@[simp] theorem pull16_readable (s : State) (b : Addr) : (s.pull16.2).readable b = s.readable b := by simp [State.readable]

/-! ### Registers with their flags -/

@[simp] theorem setANZ_a (v : Byte) (s : State) : (setANZ v s).a = v := rfl
@[simp] theorem setANZ_p (v : Byte) (s : State) : (setANZ v s).p = s.p.setNZ v := rfl
@[simp] theorem setANZ_x (v : Byte) (s : State) : (setANZ v s).x = s.x := rfl
@[simp] theorem setANZ_y (v : Byte) (s : State) : (setANZ v s).y = s.y := rfl
@[simp] theorem setANZ_sp (v : Byte) (s : State) : (setANZ v s).sp = s.sp := rfl
@[simp] theorem setANZ_pc (v : Byte) (s : State) : (setANZ v s).pc = s.pc := rfl
@[simp] theorem setANZ_nmiPending (v : Byte) (s : State) : (setANZ v s).nmiPending = s.nmiPending := rfl
@[simp] theorem setANZ_iWindow (v : Byte) (s : State) : (setANZ v s).iWindow = s.iWindow := rfl
@[simp] theorem setANZ_mem (v : Byte) (s : State) : (setANZ v s).mem = s.mem := rfl
@[simp] theorem setANZ_memMap (v : Byte) (s : State) : (setANZ v s).memMap = s.memMap := rfl
@[simp] theorem setANZ_decimalPolicy (v : Byte) (s : State) : (setANZ v s).decimalPolicy = s.decimalPolicy := rfl
@[simp] theorem setANZ_host (v : Byte) (s : State) : (setANZ v s).host = s.host := rfl
@[simp] theorem setANZ_irqHeld (v : Byte) (s : State) : (setANZ v s).irqHeld = s.irqHeld := rfl
@[simp] theorem setANZ_bus (v : Byte) (s : State) : (setANZ v s).bus = s.bus := rfl
@[simp] theorem setANZ_deviceWrites (v : Byte) (s : State) : (setANZ v s).deviceWrites = s.deviceWrites := rfl
@[simp] theorem setANZ_draws (v : Byte) (s : State) : (setANZ v s).draws = s.draws := rfl
@[simp] theorem setANZ_kindAt (v : Byte) (s : State) (b : Addr) : (setANZ v s).kindAt b = s.kindAt b := by simp [State.kindAt]
@[simp] theorem setANZ_readable (v : Byte) (s : State) (b : Addr) : (setANZ v s).readable b = s.readable b := by simp [State.readable]
@[simp] theorem setANZ_peek (v : Byte) (s : State) (b : Addr) : (setANZ v s).peek b = s.peek b := by simp [State.peek]

@[simp] theorem setXNZ_x (v : Byte) (s : State) : (setXNZ v s).x = v := rfl
@[simp] theorem setXNZ_p (v : Byte) (s : State) : (setXNZ v s).p = s.p.setNZ v := rfl
@[simp] theorem setXNZ_a (v : Byte) (s : State) : (setXNZ v s).a = s.a := rfl
@[simp] theorem setXNZ_y (v : Byte) (s : State) : (setXNZ v s).y = s.y := rfl
@[simp] theorem setXNZ_sp (v : Byte) (s : State) : (setXNZ v s).sp = s.sp := rfl
@[simp] theorem setXNZ_pc (v : Byte) (s : State) : (setXNZ v s).pc = s.pc := rfl
@[simp] theorem setXNZ_nmiPending (v : Byte) (s : State) : (setXNZ v s).nmiPending = s.nmiPending := rfl
@[simp] theorem setXNZ_iWindow (v : Byte) (s : State) : (setXNZ v s).iWindow = s.iWindow := rfl
@[simp] theorem setXNZ_mem (v : Byte) (s : State) : (setXNZ v s).mem = s.mem := rfl
@[simp] theorem setXNZ_memMap (v : Byte) (s : State) : (setXNZ v s).memMap = s.memMap := rfl
@[simp] theorem setXNZ_decimalPolicy (v : Byte) (s : State) : (setXNZ v s).decimalPolicy = s.decimalPolicy := rfl
@[simp] theorem setXNZ_host (v : Byte) (s : State) : (setXNZ v s).host = s.host := rfl
@[simp] theorem setXNZ_irqHeld (v : Byte) (s : State) : (setXNZ v s).irqHeld = s.irqHeld := rfl
@[simp] theorem setXNZ_bus (v : Byte) (s : State) : (setXNZ v s).bus = s.bus := rfl
@[simp] theorem setXNZ_deviceWrites (v : Byte) (s : State) : (setXNZ v s).deviceWrites = s.deviceWrites := rfl
@[simp] theorem setXNZ_draws (v : Byte) (s : State) : (setXNZ v s).draws = s.draws := rfl
@[simp] theorem setXNZ_kindAt (v : Byte) (s : State) (b : Addr) : (setXNZ v s).kindAt b = s.kindAt b := by simp [State.kindAt]
@[simp] theorem setXNZ_readable (v : Byte) (s : State) (b : Addr) : (setXNZ v s).readable b = s.readable b := by simp [State.readable]
@[simp] theorem setXNZ_peek (v : Byte) (s : State) (b : Addr) : (setXNZ v s).peek b = s.peek b := by simp [State.peek]

@[simp] theorem setYNZ_y (v : Byte) (s : State) : (setYNZ v s).y = v := rfl
@[simp] theorem setYNZ_p (v : Byte) (s : State) : (setYNZ v s).p = s.p.setNZ v := rfl
@[simp] theorem setYNZ_a (v : Byte) (s : State) : (setYNZ v s).a = s.a := rfl
@[simp] theorem setYNZ_x (v : Byte) (s : State) : (setYNZ v s).x = s.x := rfl
@[simp] theorem setYNZ_sp (v : Byte) (s : State) : (setYNZ v s).sp = s.sp := rfl
@[simp] theorem setYNZ_pc (v : Byte) (s : State) : (setYNZ v s).pc = s.pc := rfl
@[simp] theorem setYNZ_nmiPending (v : Byte) (s : State) : (setYNZ v s).nmiPending = s.nmiPending := rfl
@[simp] theorem setYNZ_iWindow (v : Byte) (s : State) : (setYNZ v s).iWindow = s.iWindow := rfl
@[simp] theorem setYNZ_mem (v : Byte) (s : State) : (setYNZ v s).mem = s.mem := rfl
@[simp] theorem setYNZ_memMap (v : Byte) (s : State) : (setYNZ v s).memMap = s.memMap := rfl
@[simp] theorem setYNZ_decimalPolicy (v : Byte) (s : State) : (setYNZ v s).decimalPolicy = s.decimalPolicy := rfl
@[simp] theorem setYNZ_host (v : Byte) (s : State) : (setYNZ v s).host = s.host := rfl
@[simp] theorem setYNZ_irqHeld (v : Byte) (s : State) : (setYNZ v s).irqHeld = s.irqHeld := rfl
@[simp] theorem setYNZ_bus (v : Byte) (s : State) : (setYNZ v s).bus = s.bus := rfl
@[simp] theorem setYNZ_deviceWrites (v : Byte) (s : State) : (setYNZ v s).deviceWrites = s.deviceWrites := rfl
@[simp] theorem setYNZ_draws (v : Byte) (s : State) : (setYNZ v s).draws = s.draws := rfl
@[simp] theorem setYNZ_kindAt (v : Byte) (s : State) (b : Addr) : (setYNZ v s).kindAt b = s.kindAt b := by simp [State.kindAt]
@[simp] theorem setYNZ_readable (v : Byte) (s : State) (b : Addr) : (setYNZ v s).readable b = s.readable b := by simp [State.readable]
@[simp] theorem setYNZ_peek (v : Byte) (s : State) (b : Addr) : (setYNZ v s).peek b = s.peek b := by simp [State.peek]

@[simp] theorem openWindowFor_p (s : State) (p : Flags) : (s.openWindowFor p).p = p := rfl
@[simp] theorem openWindowFor_iWindow (s : State) (p : Flags) :
    (s.openWindowFor p).iWindow = ((!s.p.i && p.i) || s.iWindow) := by
  unfold State.openWindowFor
  cases !s.p.i && p.i <;> rfl
@[simp] theorem openWindowFor_a (s : State) (p : Flags) : (s.openWindowFor p).a = s.a := by
  unfold State.openWindowFor
  cases !s.p.i && p.i <;> rfl
@[simp] theorem openWindowFor_x (s : State) (p : Flags) : (s.openWindowFor p).x = s.x := by
  unfold State.openWindowFor
  cases !s.p.i && p.i <;> rfl
@[simp] theorem openWindowFor_y (s : State) (p : Flags) : (s.openWindowFor p).y = s.y := by
  unfold State.openWindowFor
  cases !s.p.i && p.i <;> rfl
@[simp] theorem openWindowFor_sp (s : State) (p : Flags) : (s.openWindowFor p).sp = s.sp := by
  unfold State.openWindowFor
  cases !s.p.i && p.i <;> rfl
@[simp] theorem openWindowFor_pc (s : State) (p : Flags) : (s.openWindowFor p).pc = s.pc := by
  unfold State.openWindowFor
  cases !s.p.i && p.i <;> rfl
@[simp] theorem openWindowFor_nmiPending (s : State) (p : Flags) : (s.openWindowFor p).nmiPending = s.nmiPending := by
  unfold State.openWindowFor
  cases !s.p.i && p.i <;> rfl
@[simp] theorem openWindowFor_mem (s : State) (p : Flags) : (s.openWindowFor p).mem = s.mem := by
  unfold State.openWindowFor
  cases !s.p.i && p.i <;> rfl
@[simp] theorem openWindowFor_memMap (s : State) (p : Flags) : (s.openWindowFor p).memMap = s.memMap := by
  unfold State.openWindowFor
  cases !s.p.i && p.i <;> rfl
@[simp] theorem openWindowFor_decimalPolicy (s : State) (p : Flags) : (s.openWindowFor p).decimalPolicy = s.decimalPolicy := by
  unfold State.openWindowFor
  cases !s.p.i && p.i <;> rfl
@[simp] theorem openWindowFor_host (s : State) (p : Flags) : (s.openWindowFor p).host = s.host := by
  unfold State.openWindowFor
  cases !s.p.i && p.i <;> rfl
@[simp] theorem openWindowFor_irqHeld (s : State) (p : Flags) : (s.openWindowFor p).irqHeld = s.irqHeld := by
  unfold State.openWindowFor
  cases !s.p.i && p.i <;> rfl
@[simp] theorem openWindowFor_bus (s : State) (p : Flags) : (s.openWindowFor p).bus = s.bus := by
  unfold State.openWindowFor
  cases !s.p.i && p.i <;> rfl
@[simp] theorem openWindowFor_deviceWrites (s : State) (p : Flags) : (s.openWindowFor p).deviceWrites = s.deviceWrites := by
  unfold State.openWindowFor
  cases !s.p.i && p.i <;> rfl
@[simp] theorem openWindowFor_draws (s : State) (p : Flags) : (s.openWindowFor p).draws = s.draws := by
  unfold State.openWindowFor
  cases !s.p.i && p.i <;> rfl
@[simp] theorem openWindowFor_kindAt (s : State) (p : Flags) (b : Addr) : (s.openWindowFor p).kindAt b = s.kindAt b := by simp [State.kindAt]
@[simp] theorem openWindowFor_readable (s : State) (p : Flags) (b : Addr) : (s.openWindowFor p).readable b = s.readable b := by simp [State.readable]
@[simp] theorem openWindowFor_peek (s : State) (p : Flags) (b : Addr) : (s.openWindowFor p).peek b = s.peek b := by simp [State.peek]

/-! ### Handlers and reset -/

@[simp] theorem enterHandler_sp (s : State) (r : Addr) (brk : Bool) (w : Addr) : (s.enterHandler r brk w).sp = s.sp - 1 - 1 - 1 := by
  simp [State.enterHandler]

@[simp] theorem enterHandler_p (s : State) (r : Addr) (brk : Bool) (w : Addr) :
    (s.enterHandler r brk w).p = { s.p with i := true } := by
  simp [State.enterHandler]

@[simp] theorem enterHandler_a (s : State) (r : Addr) (brk : Bool) (w : Addr) : (s.enterHandler r brk w).a = s.a := by simp [State.enterHandler]
@[simp] theorem enterHandler_x (s : State) (r : Addr) (brk : Bool) (w : Addr) : (s.enterHandler r brk w).x = s.x := by simp [State.enterHandler]
@[simp] theorem enterHandler_y (s : State) (r : Addr) (brk : Bool) (w : Addr) : (s.enterHandler r brk w).y = s.y := by simp [State.enterHandler]
@[simp] theorem enterHandler_nmiPending (s : State) (r : Addr) (brk : Bool) (w : Addr) : (s.enterHandler r brk w).nmiPending = s.nmiPending := by simp [State.enterHandler]
@[simp] theorem enterHandler_iWindow (s : State) (r : Addr) (brk : Bool) (w : Addr) : (s.enterHandler r brk w).iWindow = s.iWindow := by simp [State.enterHandler]
@[simp] theorem enterHandler_memMap (s : State) (r : Addr) (brk : Bool) (w : Addr) : (s.enterHandler r brk w).memMap = s.memMap := by simp [State.enterHandler]
@[simp] theorem enterHandler_decimalPolicy (s : State) (r : Addr) (brk : Bool) (w : Addr) : (s.enterHandler r brk w).decimalPolicy = s.decimalPolicy := by simp [State.enterHandler]
@[simp] theorem enterHandler_host (s : State) (r : Addr) (brk : Bool) (w : Addr) : (s.enterHandler r brk w).host = s.host := by simp [State.enterHandler]
@[simp] theorem enterHandler_irqHeld (s : State) (r : Addr) (brk : Bool) (w : Addr) : (s.enterHandler r brk w).irqHeld = s.irqHeld := by simp [State.enterHandler]
@[simp] theorem enterHandler_kindAt (s : State) (r : Addr) (brk : Bool) (w : Addr) (b : Addr) : (s.enterHandler r brk w).kindAt b = s.kindAt b := by simp [State.kindAt]
@[simp] theorem enterHandler_readable (s : State) (r : Addr) (brk : Bool) (w : Addr) (b : Addr) : (s.enterHandler r brk w).readable b = s.readable b := by simp [State.readable]

/-- Entering a handler in full: three pushes, I set, the vector read after them. -/
theorem enterHandler_full (s : State) (r : Addr) (brk : Bool) (w : Addr) :
    s.After (s.enterHandler r brk w)
      ([some (stackAddr s.sp, highByte r), some (stackAddr (s.sp - 1), lowByte r),
        some (stackAddr (s.sp - 1 - 1), s.p.pack brk)] ++ reads 2) ∧
    (s.enterHandler r brk w).pc.toNat =
      s.wordRead [some (stackAddr s.sp, highByte r), some (stackAddr (s.sp - 1), lowByte r),
        some (stackAddr (s.sp - 1 - 1), s.p.pack brk)] s.draws w (w + 1) := by
  have h1 := (push16_after s r).trans (push16_memMap s r) (push8_after (s.push16 r) (s.p.pack brk))
  rw [push16_sp] at h1
  have h2 := h1.congr (u := s) (v := ((s.push16 r).push8 (s.p.pack brk)).setP { s.p with i := true })
    ⟨rfl, rfl, rfl, rfl⟩ ⟨rfl, rfl, rfl⟩
  have hm : (((s.push16 r).push8 (s.p.pack brk)).setP { s.p with i := true }).memMap = s.memMap := by simp
  have he : s.enterHandler r brk w =
      ((((s.push16 r).push8 (s.p.pack brk)).setP { s.p with i := true }).read16 w).2.setPc
        ((((s.push16 r).push8 (s.p.pack brk)).setP { s.p with i := true }).read16 w).1 := by
    simp [State.enterHandler]
  rw [he]
  refine ⟨(h2.trans hm (read16_after _ w)).congr ⟨rfl, rfl, rfl, rfl⟩ ⟨rfl, rfl, rfl⟩, ?_⟩
  rw [setPc_pc, read16_toNat, h2.wordRead hm]
  simp

/-- Entering a handler keeps the canonical form of memory. -/
theorem enterHandler_wf {s : State} (r : Addr) (brk : Bool) (w : Addr) (h : s.wf = true) : (s.enterHandler r brk w).wf = true := by
  have h1 : ((s.push16 r).push8 ((s.push16 r).p.pack brk)).wf = true := push8_wf _ (push16_wf _ h)
  have h2 := read16_wf w (s := ((s.push16 r).push8 ((s.push16 r).p.pack brk)).setP { s.p with i := true }) h1
  simpa [State.enterHandler, State.wf] using h2

/-- The return from a handler in full: the flags, then PC, pulled; SP three higher. -/
theorem returnFromHandler_full (s : State) :
    ∃ k, s.returnFromHandler = { s.busTurns 3 with
      p := Flags.unpack (s.byteRead [] s.draws (stackAddr (s.sp + 1)))
      pc := s.returnFromHandler.pc, sp := s.sp + 1 + 1 + 1, draws := k } ∧
    s.returnFromHandler.pc.toNat = s.wordRead [none] (s.draws + s.drawsFor (stackAddr (s.sp + 1)))
      (stackAddr (s.sp + 1 + 1)) (stackAddr (s.sp + 1 + 1 + 1)) := by
  have ht := (busTurn_after s).congr (v := s.pull8.2.setP (Flags.unpack s.pull8.1)) ⟨rfl, rfl, rfl, rfl⟩
    (by rw [pull8_eq]; exact ⟨rfl, rfl, rfl⟩)
  obtain ⟨l, hl⟩ := pull16_state (s.pull8.2.setP (Flags.unpack s.pull8.1))
  have he : s.returnFromHandler = (s.pull8.2.setP (Flags.unpack s.pull8.1)).pull16.2.setPc
    (s.pull8.2.setP (Flags.unpack s.pull8.1)).pull16.1 := rfl
  refine ⟨l, ?_, ?_⟩
  · rw [he, hl]
    simp only [pull8_eq, setPc_pc]
    rfl
  · rw [he, setPc_pc, pull16_toNat, ht.wordRead (by simp)]
    simp [pull8_eq]

@[simp] theorem resetSequence_p_i (s : State) : s.resetSequence.p.i = true := by simp [State.resetSequence]
@[simp] theorem resetSequence_nmiPending (s : State) : s.resetSequence.nmiPending = false := by simp [State.resetSequence]
@[simp] theorem resetSequence_iWindow (s : State) : s.resetSequence.iWindow = false := by simp [State.resetSequence]
@[simp] theorem resetSequence_memMap (s : State) : (s.resetSequence).memMap = s.memMap := by simp [State.resetSequence]
@[simp] theorem resetSequence_decimalPolicy (s : State) : (s.resetSequence).decimalPolicy = s.decimalPolicy := by simp [State.resetSequence]
@[simp] theorem resetSequence_host (s : State) : (s.resetSequence).host = s.host := by simp [State.resetSequence]
@[simp] theorem resetSequence_irqHeld (s : State) : (s.resetSequence).irqHeld = s.irqHeld := by simp [State.resetSequence]
@[simp] theorem resetSequence_deviceWrites (s : State) : (s.resetSequence).deviceWrites = s.deviceWrites := by simp [State.resetSequence]
@[simp] theorem resetSequence_kindAt (s : State) (b : Addr) : (s.resetSequence).kindAt b = s.kindAt b := by simp [State.kindAt]
@[simp] theorem resetSequence_readable (s : State) (b : Addr) : (s.resetSequence).readable b = s.readable b := by simp [State.readable]

end Sys2Proof.Machine
end

