-- ==== Sys2Proof/Laws/Operands.lean ====
section
/-! SUPPORT. What resolving an operand can do: it reads at most, so only the other bus masters' turns and the draw counter can
show; and what the shared operations of the instruction families can do, said once for each. -/

namespace Sys2Proof.Machine

/-! ### Operands -/

/-- Resolving a memory operand leaves the turns of the mode's own reads, and the draw counter. -/
theorem resolve_state (place : Place) (s : State) : ∃ k, (place.resolve s).2 = (s.busTurns place.pointerReads).setDraws k := by
  cases place <;> first
    | exact ⟨s.draws, rfl⟩
    | exact readPair_state ..

theorem resolve_after (place : Place) (s : State) : s.After (place.resolve s).2 (reads place.pointerReads) := by
  obtain ⟨k, hk⟩ := resolve_state place s
  rw [hk]
  exact (busTurns_after s place.pointerReads).congr ⟨rfl, rfl, rfl, rfl⟩ ⟨rfl, rfl, rfl⟩

@[simp] theorem resolve_a (place : Place) (s : State) : ((place.resolve s).2).a = s.a := by
  obtain ⟨k, h⟩ := resolve_state place s
  rw [h]; simp
@[simp] theorem resolve_x (place : Place) (s : State) : ((place.resolve s).2).x = s.x := by
  obtain ⟨k, h⟩ := resolve_state place s
  rw [h]; simp
@[simp] theorem resolve_y (place : Place) (s : State) : ((place.resolve s).2).y = s.y := by
  obtain ⟨k, h⟩ := resolve_state place s
  rw [h]; simp
@[simp] theorem resolve_sp (place : Place) (s : State) : ((place.resolve s).2).sp = s.sp := by
  obtain ⟨k, h⟩ := resolve_state place s
  rw [h]; simp
@[simp] theorem resolve_pc (place : Place) (s : State) : ((place.resolve s).2).pc = s.pc := by
  obtain ⟨k, h⟩ := resolve_state place s
  rw [h]; simp
@[simp] theorem resolve_p (place : Place) (s : State) : ((place.resolve s).2).p = s.p := by
  obtain ⟨k, h⟩ := resolve_state place s
  rw [h]; simp
@[simp] theorem resolve_nmiPending (place : Place) (s : State) : ((place.resolve s).2).nmiPending = s.nmiPending := by
  obtain ⟨k, h⟩ := resolve_state place s
  rw [h]; simp
@[simp] theorem resolve_iWindow (place : Place) (s : State) : ((place.resolve s).2).iWindow = s.iWindow := by
  obtain ⟨k, h⟩ := resolve_state place s
  rw [h]; simp
@[simp] theorem resolve_memMap (place : Place) (s : State) : ((place.resolve s).2).memMap = s.memMap := by
  obtain ⟨k, h⟩ := resolve_state place s
  rw [h]; simp
@[simp] theorem resolve_decimalPolicy (place : Place) (s : State) : ((place.resolve s).2).decimalPolicy = s.decimalPolicy := by
  obtain ⟨k, h⟩ := resolve_state place s
  rw [h]; simp
@[simp] theorem resolve_host (place : Place) (s : State) : ((place.resolve s).2).host = s.host := by
  obtain ⟨k, h⟩ := resolve_state place s
  rw [h]; simp
@[simp] theorem resolve_irqHeld (place : Place) (s : State) : ((place.resolve s).2).irqHeld = s.irqHeld := by
  obtain ⟨k, h⟩ := resolve_state place s
  rw [h]; simp
@[simp] theorem resolve_deviceWrites (place : Place) (s : State) : ((place.resolve s).2).deviceWrites = s.deviceWrites := by
  obtain ⟨k, h⟩ := resolve_state place s
  rw [h]; simp
@[simp] theorem resolve_kindAt (place : Place) (s : State) (b : Addr) : ((place.resolve s).2).kindAt b = s.kindAt b := by simp [State.kindAt]
@[simp] theorem resolve_readable (place : Place) (s : State) (b : Addr) : ((place.resolve s).2).readable b = s.readable b := by simp [State.readable]

theorem busTurns_add (s : State) (m n : Nat) : s.busTurns (m + n) = (s.busTurns m).busTurns n := by
  induction m generalizing s with
  | zero => rw [Nat.zero_add]; rfl
  | succ m ih => rw [Nat.succ_add, busTurns_succ, ih, busTurns_succ]

/-- Fetching an operand byte leaves the turns of its reads, and the draw counter. -/
theorem fetch_state (src : Source) (s : State) : ∃ k, (src.fetch s).2 = (s.busTurns src.reads).setDraws k := by
  cases src with
  | immediate b => exact ⟨s.draws, rfl⟩
  | mem place =>
    obtain ⟨k, hk⟩ := resolve_state place s
    obtain ⟨l, hl⟩ := memRead_state (place.resolve s).2 (place.resolve s).1
    exact ⟨l, by simp only [Source.fetch, Source.reads]; rw [hl, hk, busTurns_add]; rfl⟩

theorem fetch_after (src : Source) (s : State) : s.After (src.fetch s).2 (reads src.reads) := by
  obtain ⟨k, hk⟩ := fetch_state src s
  rw [hk]
  exact (busTurns_after s src.reads).congr ⟨rfl, rfl, rfl, rfl⟩ ⟨rfl, rfl, rfl⟩

@[simp] theorem fetch_a (src : Source) (s : State) : ((src.fetch s).2).a = s.a := by
  obtain ⟨k, h⟩ := fetch_state src s
  rw [h]; simp
@[simp] theorem fetch_x (src : Source) (s : State) : ((src.fetch s).2).x = s.x := by
  obtain ⟨k, h⟩ := fetch_state src s
  rw [h]; simp
@[simp] theorem fetch_y (src : Source) (s : State) : ((src.fetch s).2).y = s.y := by
  obtain ⟨k, h⟩ := fetch_state src s
  rw [h]; simp
@[simp] theorem fetch_sp (src : Source) (s : State) : ((src.fetch s).2).sp = s.sp := by
  obtain ⟨k, h⟩ := fetch_state src s
  rw [h]; simp
@[simp] theorem fetch_pc (src : Source) (s : State) : ((src.fetch s).2).pc = s.pc := by
  obtain ⟨k, h⟩ := fetch_state src s
  rw [h]; simp
@[simp] theorem fetch_p (src : Source) (s : State) : ((src.fetch s).2).p = s.p := by
  obtain ⟨k, h⟩ := fetch_state src s
  rw [h]; simp
@[simp] theorem fetch_nmiPending (src : Source) (s : State) : ((src.fetch s).2).nmiPending = s.nmiPending := by
  obtain ⟨k, h⟩ := fetch_state src s
  rw [h]; simp
@[simp] theorem fetch_iWindow (src : Source) (s : State) : ((src.fetch s).2).iWindow = s.iWindow := by
  obtain ⟨k, h⟩ := fetch_state src s
  rw [h]; simp
@[simp] theorem fetch_memMap (src : Source) (s : State) : ((src.fetch s).2).memMap = s.memMap := by
  obtain ⟨k, h⟩ := fetch_state src s
  rw [h]; simp
@[simp] theorem fetch_decimalPolicy (src : Source) (s : State) : ((src.fetch s).2).decimalPolicy = s.decimalPolicy := by
  obtain ⟨k, h⟩ := fetch_state src s
  rw [h]; simp
@[simp] theorem fetch_host (src : Source) (s : State) : ((src.fetch s).2).host = s.host := by
  obtain ⟨k, h⟩ := fetch_state src s
  rw [h]; simp
@[simp] theorem fetch_irqHeld (src : Source) (s : State) : ((src.fetch s).2).irqHeld = s.irqHeld := by
  obtain ⟨k, h⟩ := fetch_state src s
  rw [h]; simp
@[simp] theorem fetch_deviceWrites (src : Source) (s : State) : ((src.fetch s).2).deviceWrites = s.deviceWrites := by
  obtain ⟨k, h⟩ := fetch_state src s
  rw [h]; simp
@[simp] theorem fetch_kindAt (src : Source) (s : State) (b : Addr) : ((src.fetch s).2).kindAt b = s.kindAt b := by simp [State.kindAt]
@[simp] theorem fetch_readable (src : Source) (s : State) (b : Addr) : ((src.fetch s).2).readable b = s.readable b := by simp [State.readable]

/-- The operand byte of a memory operand: what a read of its address gives after the mode's own reads. -/
theorem fetch_value (place : Place) (s : State) :
    ((Source.mem place).fetch s).1 = s.byteRead (reads place.pointerReads) (place.resolve s).2.draws (place.resolve s).1 := by
  simp only [Source.fetch, memRead_eq]
  rw [(resolve_after place s).byteRead (resolve_memMap place s), List.append_nil]

/-- A read does not look at PC. -/
theorem memRead_setPc (s : State) (w a : Addr) :
    (s.setPc w).memRead a = ((s.memRead a).1, (s.memRead a).2.setPc w) := by
  rw [memRead_eq, memRead_eq]
  rfl

theorem readPair_setPc (s : State) (w a b : Addr) :
    (s.setPc w).readPair a b = ((s.readPair a b).1, (s.readPair a b).2.setPc w) := by
  rw [readPair_eq, readPair_eq]
  rfl

/-- No addressing mode looks at PC. -/
theorem resolve_setPc (place : Place) (s : State) (w : Addr) :
    place.resolve (s.setPc w) = ((place.resolve s).1, (place.resolve s).2.setPc w) := by
  cases place <;> simp [Place.resolve, State.zeroPagePointer, readPair_setPc]

/-- No operand byte but the instruction's own depends on PC. -/
theorem fetch_setPc (src : Source) (s : State) (w : Addr) :
    src.fetch (s.setPc w) = ((src.fetch s).1, (src.fetch s).2.setPc w) := by
  cases src <;> simp [Source.fetch, resolve_setPc, memRead_setPc]

theorem advance_eq (s : State) (n : Nat) : s.advance n = s.setPc (s.pc + BitVec.ofNat 16 n) := rfl

/-- The operand byte an instruction gets is the one its operand names in the state it starts from; PC has moved on. -/
theorem fetch_advance (src : Source) (s : State) (n : Nat) :
    ∃ k, src.fetch (s.advance n) =
      ((src.fetch s).1, { s with
        pc := s.pc + BitVec.ofNat 16 n, mem := (s.busTurns src.reads).mem, bus := s.bus.drop src.reads, draws := k }) := by
  obtain ⟨k, hk⟩ := fetch_state src s
  exact ⟨k, by rw [advance_eq, fetch_setPc, hk, busTurns_eq]; rfl⟩

/-- The effective address an instruction gets is the one of the state it starts from; PC has moved on. -/
theorem resolve_advance (place : Place) (s : State) (n : Nat) :
    ∃ k, place.resolve (s.advance n) =
      ((place.resolve s).1, { s with
        pc := s.pc + BitVec.ofNat 16 n
        mem := (s.busTurns place.pointerReads).mem, bus := s.bus.drop place.pointerReads, draws := k }) := by
  obtain ⟨k, hk⟩ := resolve_state place s
  exact ⟨k, by rw [advance_eq, resolve_setPc, hk, busTurns_eq]; rfl⟩

/-! ### The shared operations of the families -/

/-- ADC and SBC in full, by D and the policy. -/
theorem addOrSubtract_eq (binary decimal : Byte → Byte → Bool → AluResult) (src : Source) (s : State) :
    addOrSubtract binary decimal src s =
      if s.p.d = true ∧ s.decimalPolicy = .refuse then .refused (.decimalMode s.pc)
      else .next (accumulate (if s.p.d = true then decimal else binary) src s) := by
  unfold addOrSubtract
  split <;> simp_all

/-- What ADC or SBC leaves: A, the four flags, PC, the turns of its accesses, the draw counter. -/
theorem accumulate_eq (f : Byte → Byte → Bool → AluResult) (src : Source) (s : State) :
    ∃ k, accumulate f src s =
      { s with
        a := (f s.a (src.fetch s).1 s.p.c).value
        p := s.p.setAlu (f s.a (src.fetch s).1 s.p.c)
        pc := s.pc + BitVec.ofNat 16 src.length, mem := (s.busTurns src.reads).mem, bus := s.bus.drop src.reads, draws := k } := by
  obtain ⟨k, hk⟩ := fetch_advance src s src.length
  exact ⟨k, by unfold accumulate; rw [hk]; rfl⟩

/-- What a compare leaves: the flags, PC, the turns of its accesses, the draw counter. -/
theorem compareWith_eq {s : State} (reg : State → Byte)
    (hreg : ∀ w m b k, reg { s with pc := w, mem := m, bus := b, draws := k } = reg s) (src : Source) :
    ∃ k, compareWith reg src s =
      .next { s with
        p := s.p.compare (reg s) (src.fetch s).1, pc := s.pc + BitVec.ofNat 16 src.length
        mem := (s.busTurns src.reads).mem, bus := s.bus.drop src.reads, draws := k } := by
  obtain ⟨k, hk⟩ := fetch_advance src s src.length
  exact ⟨k, by unfold compareWith; rw [hk]; simp only [hreg]; rfl⟩

/-- What AND, EOR and ORA leave: A, N and Z, PC, the turns of its accesses, the draw counter. -/
theorem combine_eq (f : Byte → Byte → Byte) (src : Source) (s : State) :
    ∃ k, combine f src s =
      .next { s with
        a := f s.a (src.fetch s).1, p := s.p.setNZ (f s.a (src.fetch s).1)
        pc := s.pc + BitVec.ofNat 16 src.length, mem := (s.busTurns src.reads).mem, bus := s.bus.drop src.reads, draws := k } := by
  obtain ⟨k, hk⟩ := fetch_advance src s src.length
  exact ⟨k, by unfold combine; rw [hk]; rfl⟩

/-- What BIT leaves: N, V and Z, PC, the turns of its accesses, the draw counter. -/
theorem opBit_eq (src : Source) (s : State) :
    ∃ k, opBit src s =
      .next { s with
        p := s.p.bitTest s.a (src.fetch s).1, pc := s.pc + BitVec.ofNat 16 src.length
        mem := (s.busTurns src.reads).mem, bus := s.bus.drop src.reads, draws := k } := by
  obtain ⟨k, hk⟩ := fetch_advance src s src.length
  exact ⟨k, by unfold opBit; rw [hk]; rfl⟩

/-- What a load leaves: what `put` does with the operand byte, PC, the turns of its accesses, the draw counter. -/
theorem loadInto_eq (put : Byte → State → State) (src : Source) (s : State) :
    ∃ k, loadInto put src s =
      .next (put (src.fetch s).1 { s with
        pc := s.pc + BitVec.ofNat 16 src.length, mem := (s.busTurns src.reads).mem, bus := s.bus.drop src.reads, draws := k }) := by
  obtain ⟨k, hk⟩ := fetch_advance src s src.length
  exact ⟨k, by unfold loadInto; rw [hk]⟩

/-- What a store leaves: one write at the effective address, PC, the turns of its accesses, the draw counter. -/
theorem storeFrom_eq {s : State} (reg : State → Byte)
    (hreg : ∀ w m b k, reg { s with pc := w, mem := m, bus := b, draws := k } = reg s) (place : Place) :
    ∃ k, storeFrom reg place s =
      .next (({ s with
        pc := s.pc + BitVec.ofNat 16 place.length
        mem := (s.busTurns place.pointerReads).mem, bus := s.bus.drop place.pointerReads, draws := k } : State).memWrite
        (place.resolve s).1 (reg s)) := by
  obtain ⟨k, hk⟩ := resolve_advance place s place.length
  exact ⟨k, by unfold storeFrom; rw [hk]; simp only [hreg]⟩

/-- The byte a read-modify-write instruction reads, and where: the operand byte and effective address of the state it
starts from. -/
theorem readTarget_advance (place : Place) (s : State) (n : Nat) :
    ∃ k, (place.resolve (s.advance n)).1 = (place.resolve s).1 ∧
      (place.resolve (s.advance n)).2.memRead (place.resolve s).1 =
        (((Source.mem place).fetch s).1,
          { s with
            pc := s.pc + BitVec.ofNat 16 n
            mem := (s.busTurns (place.pointerReads + 1)).mem, bus := s.bus.drop (place.pointerReads + 1), draws := k }) := by
  obtain ⟨k, hk⟩ := fetch_advance (.mem place) s n
  have h1 : (place.resolve (s.advance n)).1 = (place.resolve s).1 := by rw [advance_eq, resolve_setPc]
  exact ⟨k, h1, by rw [← h1]; exact hk⟩

/-- What INC and DEC leave: one write at the effective address, N and Z, PC, the turns of its accesses, the draw counter. -/
theorem stepMemory_eq (f : Byte → Byte) (place : Place) (s : State) :
    ∃ k, stepMemory f place s =
      .next ((({ s with
          pc := s.pc + BitVec.ofNat 16 place.length
          mem := (s.busTurns (place.pointerReads + 1)).mem, bus := s.bus.drop (place.pointerReads + 1), draws := k } : State).memWrite
        (place.resolve s).1 (f ((Source.mem place).fetch s).1)).setP (s.p.setNZ (f ((Source.mem place).fetch s).1))) := by
  obtain ⟨k, h1, h2⟩ := readTarget_advance place s place.length
  exact ⟨k, by unfold stepMemory; simp only [h1, h2, memWrite_p]⟩

/-- What a shift or rotate of memory leaves: one write at the effective address, C, N and Z, PC, the turns of
its accesses, the draw counter. -/
theorem shiftTarget_mem_eq (f : Byte → Bool → ShiftResult) (place : Place) (s : State) :
    ∃ k, shiftTarget f (.mem place) s =
      .next ((({ s with
          pc := s.pc + BitVec.ofNat 16 place.length
          mem := (s.busTurns (place.pointerReads + 1)).mem, bus := s.bus.drop (place.pointerReads + 1), draws := k } : State).memWrite
        (place.resolve s).1 (f ((Source.mem place).fetch s).1 s.p.c).value).setP
          (s.p.setShift (f ((Source.mem place).fetch s).1 s.p.c))) := by
  obtain ⟨k, h1, h2⟩ := readTarget_advance place s place.length
  exact ⟨k, by unfold shiftTarget; simp only [h1, h2, memWrite_p]⟩

/-- What a shift or rotate of A leaves: A, C, N and Z, PC. -/
theorem shiftTarget_accumulator_eq (f : Byte → Bool → ShiftResult) (s : State) :
    shiftTarget f .accumulator s =
      .next { s with a := (f s.a s.p.c).value, p := s.p.setShift (f s.a s.p.c), pc := s.pc + 1 } := rfl

/-- What a branch leaves: PC. -/
theorem branchIf_eq (taken : Bool) (d : Byte) (s : State) :
    branchIf taken d s = .next (s.setPc (if taken then s.pc + 2 + sext16 d else s.pc + 2)) := by
  cases taken <;> rfl

/-- What a flag instruction leaves: the flags, PC. -/
theorem writeFlags_eq (p : Flags) (s : State) : writeFlags p s = .next { s with p := p, pc := s.pc + 1 } := rfl

/-- The pointer of JMP (Indirect): a pair of reads, two turns and the draw counter. -/
theorem jumpPointer_state (s : State) (w : Addr) : ∃ k, (s.jumpPointer w).2 = (s.busTurns 2).setDraws k := by
  unfold State.jumpPointer
  split <;> exact readPair_state ..

theorem jumpPointer_setPc (s : State) (v w : Addr) :
    (s.setPc v).jumpPointer w = ((s.jumpPointer w).1, (s.jumpPointer w).2.setPc v) := by
  unfold State.jumpPointer
  split <;> exact readPair_setPc ..

end Sys2Proof.Machine
end

