-- ==== Sys2Proof/Laws/Boundary.lean ====
section
/-! SUPPORT. What a boundary and a fetch can do, said once. -/

namespace Sys2Proof.Machine

/-! ### The pins -/

@[simp] theorem applyPins_p (s : State) (h : HostInput) : (s.applyPins h).p = { s.p with v := s.p.v || h.soEdge } := by
  simp [State.applyPins]
@[simp] theorem applyPins_nmiPending (s : State) (h : HostInput) : (s.applyPins h).nmiPending = (s.nmiPending || h.nmiEdge) := by
  simp [State.applyPins]
@[simp] theorem applyPins_iWindow (s : State) (h : HostInput) : (s.applyPins h).iWindow = false := by simp [State.applyPins]
@[simp] theorem applyPins_host (s : State) (h : HostInput) : (s.applyPins h).host = s.host.tail := by simp [State.applyPins]
@[simp] theorem applyPins_a (s : State) (h : HostInput) : (s.applyPins h).a = s.a := rfl
@[simp] theorem applyPins_x (s : State) (h : HostInput) : (s.applyPins h).x = s.x := rfl
@[simp] theorem applyPins_y (s : State) (h : HostInput) : (s.applyPins h).y = s.y := rfl
@[simp] theorem applyPins_sp (s : State) (h : HostInput) : (s.applyPins h).sp = s.sp := rfl
@[simp] theorem applyPins_pc (s : State) (h : HostInput) : (s.applyPins h).pc = s.pc := rfl
@[simp] theorem applyPins_mem (s : State) (h : HostInput) : (s.applyPins h).mem = s.mem := rfl
@[simp] theorem applyPins_memMap (s : State) (h : HostInput) : (s.applyPins h).memMap = s.memMap := rfl
@[simp] theorem applyPins_decimalPolicy (s : State) (h : HostInput) : (s.applyPins h).decimalPolicy = s.decimalPolicy := rfl
@[simp] theorem applyPins_irqHeld (s : State) (h : HostInput) : (s.applyPins h).irqHeld = s.irqHeld := rfl
@[simp] theorem applyPins_bus (s : State) (h : HostInput) : (s.applyPins h).bus = s.bus := rfl
@[simp] theorem applyPins_deviceWrites (s : State) (h : HostInput) : (s.applyPins h).deviceWrites = s.deviceWrites := rfl
@[simp] theorem applyPins_draws (s : State) (h : HostInput) : (s.applyPins h).draws = s.draws := rfl
@[simp] theorem applyPins_kindAt (s : State) (h : HostInput) (b : Addr) : (s.applyPins h).kindAt b = s.kindAt b := by simp [State.kindAt]
@[simp] theorem applyPins_readable (s : State) (h : HostInput) (b : Addr) : (s.applyPins h).readable b = s.readable b := by simp [State.readable]
@[simp] theorem applyPins_peek (s : State) (h : HostInput) (b : Addr) : (s.applyPins h).peek b = s.peek b := by simp [State.peek]

theorem applyPins_wf {s : State} (h : HostInput) (hs : s.wf = true) : (s.applyPins h).wf = true := hs

/-! ### The boundary and the fetch -/

/-- What a boundary leads to, case by case, in the order of priority. -/
theorem boundary_cases (s : State) :
    (s.input.reset = true ∧ s.boundary = .entered (s.applyPins s.input).resetSequence) ∨
    (s.input.reset = false ∧ (s.nmiPending || s.input.nmiEdge) = true ∧ s.input.take = true ∧
      s.boundary = .entered (((s.applyPins s.input).setNmiPending false).intEntry nmiVector)) ∨
    (s.input.reset = false ∧ ((s.nmiPending || s.input.nmiEdge) && s.input.take) = false ∧ s.input.irqLevel = true ∧
      (!s.p.i || s.iWindow) = true ∧ s.input.take = true ∧
      s.boundary = .entered ((s.applyPins s.input).intEntry irqVector)) ∨
    (s.input.reset = false ∧ ((s.nmiPending || s.input.nmiEdge) && s.input.take) = false ∧
      (s.input.irqLevel && (!s.p.i || s.iWindow) && s.input.take) = false ∧
      s.boundary = .run (s.applyPins s.input)) := by
  have hp : (s.applyPins s.input).p.i = s.p.i := by simp
  unfold State.boundary
  simp only [applyPins_nmiPending, hp]
  split
  · exact .inl ⟨by assumption, rfl⟩
  · rename_i h0
    have h0' : s.input.reset = false := by simpa using h0
    split
    · rename_i h1
      rw [Bool.and_eq_true] at h1
      exact .inr (.inl ⟨h0', h1.1, h1.2, rfl⟩)
    · rename_i h1
      have h1' : ((s.nmiPending || s.input.nmiEdge) && s.input.take) = false := by simpa using h1
      split
      · rename_i h2
        rw [Bool.and_eq_true, Bool.and_eq_true] at h2
        exact .inr (.inr (.inl ⟨h0', h1', h2.1.1, h2.1.2, h2.2, rfl⟩))
      · rename_i h2
        exact .inr (.inr (.inr ⟨h0', h1', Bool.eq_false_iff.2 h2, rfl⟩))

/-- A fetch that gives an instruction leaves the turns of its reads and the draw counter. -/
theorem fetchInstr_state {s t : State} {i : Instr} (h : s.fetchInstr = .instr i t) : ∃ n k, t = (s.busTurns n).setDraws k := by
  obtain ⟨k, hk⟩ := memRead_state s s.pc
  obtain ⟨l, hl⟩ := memRead_state (s.memRead s.pc).2 (s.pc + 1)
  obtain ⟨m, hm⟩ := memRead_state ((s.memRead s.pc).2.memRead (s.pc + 1)).2 (s.pc + 2)
  unfold State.fetchInstr at h
  dsimp only at h
  split at h
  · cases h
  · cases h; exact ⟨1, k, hk⟩
  · cases h; exact ⟨2, l, by rw [hl, hk]; rfl⟩
  · cases h; exact ⟨3, m, by rw [hm, hl, hk]; rfl⟩

/-- What a step can do: a boundary entry, an instruction run, or a refused opcode. -/
theorem step_cases (s : State) :
    (∃ t, s.boundary = .entered t ∧ step s = .next t) ∨
    (∃ t i u, s.boundary = .run t ∧ t.fetchInstr = .instr i u ∧ step s = exec i u) ∨
    (∃ t op, s.boundary = .run t ∧ t.fetchInstr = .undefinedOpcode op ∧ step s = .refused (.undefinedOpcode op t.pc)) := by
  unfold step
  cases hb : s.boundary with
  | entered t => exact .inl ⟨t, rfl, rfl⟩
  | run t =>
    cases hf : t.fetchInstr with
    | instr i u => exact .inr (.inl ⟨t, i, u, rfl, hf, by simp [hf]⟩)
    | undefinedOpcode op => exact .inr (.inr ⟨t, op, rfl, hf, by simp [hf]⟩)

end Sys2Proof.Machine
end

