-- ==== Sys2Proof/Machine/Asm.lean ====
section
/-! DEFINITION. The assembler line of an instruction, as the source's "Syntax" lines show it (30_encoding.md R89). -/

namespace Sys2Proof.Machine

/-- The three letters of a mnemonic (30_encoding.md R89). -/
def mnemonicChars : Mnemonic → List Char
  | .adc => ['A', 'D', 'C']
  | .cmp => ['C', 'M', 'P']
  | .cpx => ['C', 'P', 'X']
  | .cpy => ['C', 'P', 'Y']
  | .sbc => ['S', 'B', 'C']
  | .and => ['A', 'N', 'D']
  | .bit => ['B', 'I', 'T']
  | .eor => ['E', 'O', 'R']
  | .ora => ['O', 'R', 'A']
  | .asl => ['A', 'S', 'L']
  | .lsr => ['L', 'S', 'R']
  | .rol => ['R', 'O', 'L']
  | .ror => ['R', 'O', 'R']
  | .bcc => ['B', 'C', 'C']
  | .bcs => ['B', 'C', 'S']
  | .beq => ['B', 'E', 'Q']
  | .bmi => ['B', 'M', 'I']
  | .bne => ['B', 'N', 'E']
  | .bpl => ['B', 'P', 'L']
  | .bvc => ['B', 'V', 'C']
  | .bvs => ['B', 'V', 'S']
  | .brk => ['B', 'R', 'K']
  | .nop => ['N', 'O', 'P']
  | .rti => ['R', 'T', 'I']
  | .clc => ['C', 'L', 'C']
  | .cld => ['C', 'L', 'D']
  | .cli => ['C', 'L', 'I']
  | .clv => ['C', 'L', 'V']
  | .sec => ['S', 'E', 'C']
  | .sed => ['S', 'E', 'D']
  | .sei => ['S', 'E', 'I']
  | .dec => ['D', 'E', 'C']
  | .dex => ['D', 'E', 'X']
  | .dey => ['D', 'E', 'Y']
  | .inc => ['I', 'N', 'C']
  | .inx => ['I', 'N', 'X']
  | .iny => ['I', 'N', 'Y']
  | .jmp => ['J', 'M', 'P']
  | .jsr => ['J', 'S', 'R']
  | .rts => ['R', 'T', 'S']
  | .lda => ['L', 'D', 'A']
  | .ldx => ['L', 'D', 'X']
  | .ldy => ['L', 'D', 'Y']
  | .sta => ['S', 'T', 'A']
  | .stx => ['S', 'T', 'X']
  | .sty => ['S', 'T', 'Y']
  | .pha => ['P', 'H', 'A']
  | .php => ['P', 'H', 'P']
  | .pla => ['P', 'L', 'A']
  | .plp => ['P', 'L', 'P']
  | .tax => ['T', 'A', 'X']
  | .tay => ['T', 'A', 'Y']
  | .tsx => ['T', 'S', 'X']
  | .txa => ['T', 'X', 'A']
  | .txs => ['T', 'X', 'S']
  | .tya => ['T', 'Y', 'A']

/-- A hexadecimal digit. -/
def hexDigit (n : Nat) : Char := if n < 10 then Char.ofNat (48 + n) else Char.ofNat (55 + n)

/-- Two hexadecimal digits after `$` (30_encoding.md R89). -/
def hexByte (b : Byte) : List Char := ['$', hexDigit (b.toNat / 16), hexDigit (b.toNat % 16)]

/-- Four hexadecimal digits after `$` (30_encoding.md R89). -/
def hexWord (w : Addr) : List Char :=
  ['$', hexDigit (w.toNat / 4096), hexDigit (w.toNat / 256 % 16), hexDigit (w.toNat / 16 % 16), hexDigit (w.toNat % 16)]

/-- The digits of an operand. -/
def operandChars : OperandField → List Char
  | .none => []
  | .byte b => hexByte b
  | .word w => hexWord w

/-- The shape of the operand by mode (30_encoding.md R89). -/
def operandShape (mode : Mode) (digits : List Char) : List Char :=
  match mode with
  | .implied | .accumulator => []
  | .immediate => [' ', '#'] ++ digits
  | .relative | .zeroPage | .absolute => ' ' :: digits
  | .zeroPageX | .absoluteX => ' ' :: digits ++ [',', 'X']
  | .zeroPageY | .absoluteY => ' ' :: digits ++ [',', 'Y']
  | .indirect => [' ', '('] ++ digits ++ [')']
  | .indirectX => [' ', '('] ++ digits ++ [',', 'X', ')']
  | .indirectY => [' ', '('] ++ digits ++ [')', ',', 'Y']

/-- The assembler line of an instruction (30_encoding.md R89). -/
def asmLine (i : Instr) : List Char := mnemonicChars i.mnemonic ++ operandShape i.mode (operandChars i.operand)

end Sys2Proof.Machine
end

