-- ==== Sys2Proof/Tests/Slice0.lean ====
section
/-! SUPPORT. Tests: well-formedness refuses each kind of ill-formed term, every opcode decodes as the spec's tables say, one
step of each instruction, the boundary, and a witness for the hypotheses of each statement. Expected values are those of
spec/95_test_vectors.md (its T and E vectors, named in the comments) or worked out by hand from the rule cited. -/

namespace Sys2Proof.Tests

open Sys2Proof.Machine Sys2Proof.Claims

/-! ### Well-formedness: each check refuses an ill-formed term -/

/-- Check 1 (30_encoding.md R89): STA has no Immediate mode. -/
theorem test_sta_immediate_is_ill_formed :
    (Form.mk .sta .immediate (.byte 0x12)).wellFormed = false ∧ (Form.mk .sta .immediate (.byte 0x12)).operandsFit = true := by decide

/-- Check 2 (30_encoding.md R70): a Zero Page operand is one byte, not two. -/
theorem test_zero_page_word_is_ill_formed :
    (Form.mk .lda .zeroPage (.word 0x1234)).wellFormed = false ∧ (Form.mk .lda .zeroPage (.word 0x1234)).modeListed = true := by decide

theorem test_lda_zero_page_is_well_formed : (Form.mk .lda .zeroPage (.byte 0x12)).wellFormed = true := by decide

/-! ### Decoding: the opcode bytes of the Encodings tables, the operand byte `$12`, the operand word `$1234` low byte first -/

theorem test_decode_adc :
    decode [0x69, 0x12] = .instr (.adcImm 0x12) [] ∧
    decode [0x65, 0x12] = .instr (.adcZp 0x12) [] ∧
    decode [0x75, 0x12] = .instr (.adcZpx 0x12) [] ∧
    decode [0x6D, 0x34, 0x12] = .instr (.adcAbs 0x1234) [] ∧
    decode [0x7D, 0x34, 0x12] = .instr (.adcAbx 0x1234) [] ∧
    decode [0x79, 0x34, 0x12] = .instr (.adcAby 0x1234) [] ∧
    decode [0x61, 0x12] = .instr (.adcIzx 0x12) [] ∧
    decode [0x71, 0x12] = .instr (.adcIzy 0x12) [] := by decide

theorem test_decode_cmp :
    decode [0xC9, 0x12] = .instr (.cmpImm 0x12) [] ∧
    decode [0xC5, 0x12] = .instr (.cmpZp 0x12) [] ∧
    decode [0xD5, 0x12] = .instr (.cmpZpx 0x12) [] ∧
    decode [0xCD, 0x34, 0x12] = .instr (.cmpAbs 0x1234) [] ∧
    decode [0xDD, 0x34, 0x12] = .instr (.cmpAbx 0x1234) [] ∧
    decode [0xD9, 0x34, 0x12] = .instr (.cmpAby 0x1234) [] ∧
    decode [0xC1, 0x12] = .instr (.cmpIzx 0x12) [] ∧
    decode [0xD1, 0x12] = .instr (.cmpIzy 0x12) [] := by decide

theorem test_decode_cpx :
    decode [0xE0, 0x12] = .instr (.cpxImm 0x12) [] ∧
    decode [0xE4, 0x12] = .instr (.cpxZp 0x12) [] ∧
    decode [0xEC, 0x34, 0x12] = .instr (.cpxAbs 0x1234) [] := by decide

theorem test_decode_cpy :
    decode [0xC0, 0x12] = .instr (.cpyImm 0x12) [] ∧
    decode [0xC4, 0x12] = .instr (.cpyZp 0x12) [] ∧
    decode [0xCC, 0x34, 0x12] = .instr (.cpyAbs 0x1234) [] := by decide

theorem test_decode_sbc :
    decode [0xE9, 0x12] = .instr (.sbcImm 0x12) [] ∧
    decode [0xE5, 0x12] = .instr (.sbcZp 0x12) [] ∧
    decode [0xF5, 0x12] = .instr (.sbcZpx 0x12) [] ∧
    decode [0xED, 0x34, 0x12] = .instr (.sbcAbs 0x1234) [] ∧
    decode [0xFD, 0x34, 0x12] = .instr (.sbcAbx 0x1234) [] ∧
    decode [0xF9, 0x34, 0x12] = .instr (.sbcAby 0x1234) [] ∧
    decode [0xE1, 0x12] = .instr (.sbcIzx 0x12) [] ∧
    decode [0xF1, 0x12] = .instr (.sbcIzy 0x12) [] := by decide

theorem test_decode_and :
    decode [0x29, 0x12] = .instr (.andImm 0x12) [] ∧
    decode [0x25, 0x12] = .instr (.andZp 0x12) [] ∧
    decode [0x35, 0x12] = .instr (.andZpx 0x12) [] ∧
    decode [0x2D, 0x34, 0x12] = .instr (.andAbs 0x1234) [] ∧
    decode [0x3D, 0x34, 0x12] = .instr (.andAbx 0x1234) [] ∧
    decode [0x39, 0x34, 0x12] = .instr (.andAby 0x1234) [] ∧
    decode [0x21, 0x12] = .instr (.andIzx 0x12) [] ∧
    decode [0x31, 0x12] = .instr (.andIzy 0x12) [] := by decide

theorem test_decode_bit :
    decode [0x24, 0x12] = .instr (.bitZp 0x12) [] ∧
    decode [0x2C, 0x34, 0x12] = .instr (.bitAbs 0x1234) [] := by decide

theorem test_decode_eor :
    decode [0x49, 0x12] = .instr (.eorImm 0x12) [] ∧
    decode [0x45, 0x12] = .instr (.eorZp 0x12) [] ∧
    decode [0x55, 0x12] = .instr (.eorZpx 0x12) [] ∧
    decode [0x4D, 0x34, 0x12] = .instr (.eorAbs 0x1234) [] ∧
    decode [0x5D, 0x34, 0x12] = .instr (.eorAbx 0x1234) [] ∧
    decode [0x59, 0x34, 0x12] = .instr (.eorAby 0x1234) [] ∧
    decode [0x41, 0x12] = .instr (.eorIzx 0x12) [] ∧
    decode [0x51, 0x12] = .instr (.eorIzy 0x12) [] := by decide

theorem test_decode_ora :
    decode [0x09, 0x12] = .instr (.oraImm 0x12) [] ∧
    decode [0x05, 0x12] = .instr (.oraZp 0x12) [] ∧
    decode [0x15, 0x12] = .instr (.oraZpx 0x12) [] ∧
    decode [0x0D, 0x34, 0x12] = .instr (.oraAbs 0x1234) [] ∧
    decode [0x1D, 0x34, 0x12] = .instr (.oraAbx 0x1234) [] ∧
    decode [0x19, 0x34, 0x12] = .instr (.oraAby 0x1234) [] ∧
    decode [0x01, 0x12] = .instr (.oraIzx 0x12) [] ∧
    decode [0x11, 0x12] = .instr (.oraIzy 0x12) [] := by decide

theorem test_decode_asl :
    decode [0x0A] = .instr .aslAcc [] ∧
    decode [0x06, 0x12] = .instr (.aslZp 0x12) [] ∧
    decode [0x16, 0x12] = .instr (.aslZpx 0x12) [] ∧
    decode [0x0E, 0x34, 0x12] = .instr (.aslAbs 0x1234) [] ∧
    decode [0x1E, 0x34, 0x12] = .instr (.aslAbx 0x1234) [] := by decide

theorem test_decode_lsr :
    decode [0x4A] = .instr .lsrAcc [] ∧
    decode [0x46, 0x12] = .instr (.lsrZp 0x12) [] ∧
    decode [0x56, 0x12] = .instr (.lsrZpx 0x12) [] ∧
    decode [0x4E, 0x34, 0x12] = .instr (.lsrAbs 0x1234) [] ∧
    decode [0x5E, 0x34, 0x12] = .instr (.lsrAbx 0x1234) [] := by decide

theorem test_decode_rol :
    decode [0x2A] = .instr .rolAcc [] ∧
    decode [0x26, 0x12] = .instr (.rolZp 0x12) [] ∧
    decode [0x36, 0x12] = .instr (.rolZpx 0x12) [] ∧
    decode [0x2E, 0x34, 0x12] = .instr (.rolAbs 0x1234) [] ∧
    decode [0x3E, 0x34, 0x12] = .instr (.rolAbx 0x1234) [] := by decide

theorem test_decode_ror :
    decode [0x6A] = .instr .rorAcc [] ∧
    decode [0x66, 0x12] = .instr (.rorZp 0x12) [] ∧
    decode [0x76, 0x12] = .instr (.rorZpx 0x12) [] ∧
    decode [0x6E, 0x34, 0x12] = .instr (.rorAbs 0x1234) [] ∧
    decode [0x7E, 0x34, 0x12] = .instr (.rorAbx 0x1234) [] := by decide

theorem test_decode_bcc :
    decode [0x90, 0x12] = .instr (.bcc 0x12) [] := by decide

theorem test_decode_bcs :
    decode [0xB0, 0x12] = .instr (.bcs 0x12) [] := by decide

theorem test_decode_beq :
    decode [0xF0, 0x12] = .instr (.beq 0x12) [] := by decide

theorem test_decode_bmi :
    decode [0x30, 0x12] = .instr (.bmi 0x12) [] := by decide

theorem test_decode_bne :
    decode [0xD0, 0x12] = .instr (.bne 0x12) [] := by decide

theorem test_decode_bpl :
    decode [0x10, 0x12] = .instr (.bpl 0x12) [] := by decide

theorem test_decode_bvc :
    decode [0x50, 0x12] = .instr (.bvc 0x12) [] := by decide

theorem test_decode_bvs :
    decode [0x70, 0x12] = .instr (.bvs 0x12) [] := by decide

theorem test_decode_brk :
    decode [0x00] = .instr .brk [] := by decide

theorem test_decode_nop :
    decode [0xEA] = .instr .nop [] := by decide

theorem test_decode_rti :
    decode [0x40] = .instr .rti [] := by decide

theorem test_decode_clc :
    decode [0x18] = .instr .clc [] := by decide

theorem test_decode_cld :
    decode [0xD8] = .instr .cld [] := by decide

theorem test_decode_cli :
    decode [0x58] = .instr .cli [] := by decide

theorem test_decode_clv :
    decode [0xB8] = .instr .clv [] := by decide

theorem test_decode_sec :
    decode [0x38] = .instr .sec [] := by decide

theorem test_decode_sed :
    decode [0xF8] = .instr .sed [] := by decide

theorem test_decode_sei :
    decode [0x78] = .instr .sei [] := by decide

theorem test_decode_dec :
    decode [0xC6, 0x12] = .instr (.decZp 0x12) [] ∧
    decode [0xD6, 0x12] = .instr (.decZpx 0x12) [] ∧
    decode [0xCE, 0x34, 0x12] = .instr (.decAbs 0x1234) [] ∧
    decode [0xDE, 0x34, 0x12] = .instr (.decAbx 0x1234) [] := by decide

theorem test_decode_dex :
    decode [0xCA] = .instr .dex [] := by decide

theorem test_decode_dey :
    decode [0x88] = .instr .dey [] := by decide

theorem test_decode_inc :
    decode [0xE6, 0x12] = .instr (.incZp 0x12) [] ∧
    decode [0xF6, 0x12] = .instr (.incZpx 0x12) [] ∧
    decode [0xEE, 0x34, 0x12] = .instr (.incAbs 0x1234) [] ∧
    decode [0xFE, 0x34, 0x12] = .instr (.incAbx 0x1234) [] := by decide

theorem test_decode_inx :
    decode [0xE8] = .instr .inx [] := by decide

theorem test_decode_iny :
    decode [0xC8] = .instr .iny [] := by decide

theorem test_decode_jmp :
    decode [0x4C, 0x34, 0x12] = .instr (.jmpAbs 0x1234) [] ∧
    decode [0x6C, 0x34, 0x12] = .instr (.jmpInd 0x1234) [] := by decide

theorem test_decode_jsr :
    decode [0x20, 0x34, 0x12] = .instr (.jsr 0x1234) [] := by decide

theorem test_decode_rts :
    decode [0x60] = .instr .rts [] := by decide

theorem test_decode_lda :
    decode [0xA9, 0x12] = .instr (.ldaImm 0x12) [] ∧
    decode [0xA5, 0x12] = .instr (.ldaZp 0x12) [] ∧
    decode [0xB5, 0x12] = .instr (.ldaZpx 0x12) [] ∧
    decode [0xAD, 0x34, 0x12] = .instr (.ldaAbs 0x1234) [] ∧
    decode [0xBD, 0x34, 0x12] = .instr (.ldaAbx 0x1234) [] ∧
    decode [0xB9, 0x34, 0x12] = .instr (.ldaAby 0x1234) [] ∧
    decode [0xA1, 0x12] = .instr (.ldaIzx 0x12) [] ∧
    decode [0xB1, 0x12] = .instr (.ldaIzy 0x12) [] := by decide

theorem test_decode_ldx :
    decode [0xA2, 0x12] = .instr (.ldxImm 0x12) [] ∧
    decode [0xA6, 0x12] = .instr (.ldxZp 0x12) [] ∧
    decode [0xB6, 0x12] = .instr (.ldxZpy 0x12) [] ∧
    decode [0xAE, 0x34, 0x12] = .instr (.ldxAbs 0x1234) [] ∧
    decode [0xBE, 0x34, 0x12] = .instr (.ldxAby 0x1234) [] := by decide

theorem test_decode_ldy :
    decode [0xA0, 0x12] = .instr (.ldyImm 0x12) [] ∧
    decode [0xA4, 0x12] = .instr (.ldyZp 0x12) [] ∧
    decode [0xB4, 0x12] = .instr (.ldyZpx 0x12) [] ∧
    decode [0xAC, 0x34, 0x12] = .instr (.ldyAbs 0x1234) [] ∧
    decode [0xBC, 0x34, 0x12] = .instr (.ldyAbx 0x1234) [] := by decide

theorem test_decode_sta :
    decode [0x85, 0x12] = .instr (.staZp 0x12) [] ∧
    decode [0x95, 0x12] = .instr (.staZpx 0x12) [] ∧
    decode [0x8D, 0x34, 0x12] = .instr (.staAbs 0x1234) [] ∧
    decode [0x9D, 0x34, 0x12] = .instr (.staAbx 0x1234) [] ∧
    decode [0x99, 0x34, 0x12] = .instr (.staAby 0x1234) [] ∧
    decode [0x81, 0x12] = .instr (.staIzx 0x12) [] ∧
    decode [0x91, 0x12] = .instr (.staIzy 0x12) [] := by decide

theorem test_decode_stx :
    decode [0x86, 0x12] = .instr (.stxZp 0x12) [] ∧
    decode [0x96, 0x12] = .instr (.stxZpy 0x12) [] ∧
    decode [0x8E, 0x34, 0x12] = .instr (.stxAbs 0x1234) [] := by decide

theorem test_decode_sty :
    decode [0x84, 0x12] = .instr (.styZp 0x12) [] ∧
    decode [0x94, 0x12] = .instr (.styZpx 0x12) [] ∧
    decode [0x8C, 0x34, 0x12] = .instr (.styAbs 0x1234) [] := by decide

theorem test_decode_pha :
    decode [0x48] = .instr .pha [] := by decide

theorem test_decode_php :
    decode [0x08] = .instr .php [] := by decide

theorem test_decode_pla :
    decode [0x68] = .instr .pla [] := by decide

theorem test_decode_plp :
    decode [0x28] = .instr .plp [] := by decide

theorem test_decode_tax :
    decode [0xAA] = .instr .tax [] := by decide

theorem test_decode_tay :
    decode [0xA8] = .instr .tay [] := by decide

theorem test_decode_tsx :
    decode [0xBA] = .instr .tsx [] := by decide

theorem test_decode_txa :
    decode [0x8A] = .instr .txa [] := by decide

theorem test_decode_txs :
    decode [0x9A] = .instr .txs [] := by decide

theorem test_decode_tya :
    decode [0x98] = .instr .tya [] := by decide

/-- 30_encoding.md R91: a blank cell of the grid; an operand byte that is missing; no byte at all. -/
theorem test_decode_refuses :
    decode [0x02] = .undefinedOpcode 0x02 ∧ decode [0xFF, 0x00] = .undefinedOpcode 0xFF ∧ decode [0x80, 0x00] = .undefinedOpcode 0x80 ∧
    decode [0xA9] = .truncated 0xA9 ∧ decode [0x4C, 0x00] = .truncated 0x4C ∧ decode [] = .noBytes := by decide

/-- The bytes after the instruction are handed back. -/
theorem test_decode_leaves_the_rest : decode [0xA9, 0x12, 0xEA] = .instr (.ldaImm 0x12) [0xEA] := by decide

/-- Words numbered as spec/opcode_table.json numbers them; operand bits past `nbits` are 0. -/
theorem test_table_words :
    decodeTableWord 16 0x12A9 = some (.ldaImm 0x12) ∧ decodeTableWord 24 0x12344C = some (.jmpAbs 0x1234) ∧
    decodeTableWord 8 0x4C = some (.jmpAbs 0) ∧ decodeTableWord 8 0x02 = none := by decide

/-! ### One step of each instruction (vectors T of spec/95_test_vectors.md) -/

/-- The start state of the vectors: PC `$0600`, SP `$FF`, every other register and flag 0, all memory RAM, the cells given. -/
def start (cells : List (Nat × Byte)) : State :=
  { State.reset with
    pc := 0x0600, sp := 0xFF, p := ⟨false, false, false, false, false, false⟩
    mem := cells.foldl (fun m c => Memory.setByte m c.1 c.2) [] }

/-- What a step leaves, seen through `f`; nothing where the step does not complete. -/
def after {α : Type} (s : State) (f : State → α) : Option α :=
  match step s with
  | .next t => some (f t)
  | .fault _ | .refused _ => none

/-- Why a step was refused. -/
def refusal (s : State) : Option Refusal :=
  match step s with
  | .refused r => some r
  | .next _ | .fault _ => none

/-- `ADC #$80` (T4, R100): carry and overflow and zero together. -/
theorem test_adc_1 :
    after ({ start [(0x0600, 0x69), (0x0601, 0x80)] with a := 0x80 })
      (fun t => (t.a, t.p.n, t.p.v, t.p.z, t.p.c, t.pc)) =
    some (0x00, false, true, true, true, 0x0602) := by decide

/-- `ADC ($FF,X)` (T14, R100): pointer high byte from $0000, not $0100. -/
theorem test_adc_2 :
    after ({ start [(0x0000, 0x30), (0x0100, 0x40), (0x3000, 0x08), (0x4000, 0x09), (0x0600, 0x61), (0x0601, 0xFF)] with a := 0x01, x := 0x00 })
      (fun t => (t.a, t.p.n, t.p.v, t.p.z, t.p.c, t.pc)) =
    some (0x09, false, false, false, false, 0x0602) := by decide

/-- `SBC #$01` (T20, R101): -128 - 1: V=1. -/
theorem test_sbc_1 :
    after ({ start [(0x0600, 0xE9), (0x0601, 0x01)] with a := 0x80, p := ⟨false, false, false, false, false, true⟩ })
      (fun t => (t.a, t.p.n, t.p.v, t.p.z, t.p.c, t.pc)) =
    some (0x7F, false, true, false, true, 0x0602) := by decide

/-- `SBC #$B0` (T21, R101): the rule's own example. -/
theorem test_sbc_2 :
    after ({ start [(0x0600, 0xE9), (0x0601, 0xB0)] with a := 0x50, p := ⟨false, false, false, false, false, true⟩ })
      (fun t => (t.a, t.p.n, t.p.v, t.p.z, t.p.c, t.pc)) =
    some (0xA0, true, true, false, false, 0x0602) := by decide

/-- `CMP #$01` (T29, R103): unsigned: $80 >= $01; V untouched. -/
theorem test_cmp_1 :
    after ({ start [(0x0600, 0xC9), (0x0601, 0x01)] with a := 0x80, p := ⟨false, true, false, false, false, false⟩ })
      (fun t => (t.a, t.p.n, t.p.v, t.p.z, t.p.c, t.pc)) =
    some (0x80, false, true, false, true, 0x0602) := by decide

/-- `CMP #$41` (T28, R103): A smaller: C=0, N from difference $FF. -/
theorem test_cmp_2 :
    after ({ start [(0x0600, 0xC9), (0x0601, 0x41)] with a := 0x40 })
      (fun t => (t.a, t.p.n, t.p.z, t.p.c, t.pc)) =
    some (0x40, true, false, false, 0x0602) := by decide

/-- `CPX $10` (T33, R104): X smaller. -/
theorem test_cpx_1 :
    after ({ start [(0x0010, 0x20), (0x0600, 0xE4), (0x0601, 0x10)] with x := 0x10 })
      (fun t => (t.x, t.p.n, t.p.z, t.p.c, t.pc)) =
    some (0x10, true, false, false, 0x0602) := by decide

/-- `CPX #$10` (T34, R104): equal. -/
theorem test_cpx_2 :
    after ({ start [(0x0600, 0xE0), (0x0601, 0x10)] with x := 0x10 })
      (fun t => (t.x, t.p.n, t.p.z, t.p.c, t.pc)) =
    some (0x10, false, true, true, 0x0602) := by decide

/-- `CPY #$7F` (T35, R105): difference $80. -/
theorem test_cpy_1 :
    after ({ start [(0x0600, 0xC0), (0x0601, 0x7F)] with y := 0xFF })
      (fun t => (t.y, t.p.n, t.p.z, t.p.c, t.pc)) =
    some (0xFF, true, false, true, 0x0602) := by decide

/-- `CPY $1234` (T36, R105): Y smaller. -/
theorem test_cpy_2 :
    after ({ start [(0x1234, 0x01), (0x0600, 0xCC), (0x0601, 0x34), (0x0602, 0x12)] with y := 0x00 })
      (fun t => (t.y, t.p.n, t.p.z, t.p.c, t.pc)) =
    some (0x00, true, false, false, 0x0603) := by decide

/-- `AND #$F0` (T38, R110): negative; C, V untouched. -/
theorem test_and_1 :
    after ({ start [(0x0600, 0x29), (0x0601, 0xF0)] with a := 0x8F, p := ⟨false, true, false, false, false, true⟩ })
      (fun t => (t.a, t.p.n, t.p.v, t.p.z, t.p.c, t.pc)) =
    some (0x80, true, true, false, true, 0x0602) := by decide

/-- `AND $1200,Y` (T39, R110): Absolute,Y no page cross. -/
theorem test_and_2 :
    after ({ start [(0x12FF, 0x55), (0x0600, 0x39), (0x0602, 0x12)] with a := 0xFF, y := 0xFF })
      (fun t => (t.a, t.p.n, t.p.z, t.pc)) =
    some (0x55, false, false, 0x0603) := by decide

/-- `ORA #$80` (T41, R113): negative. -/
theorem test_ora_1 :
    after ({ start [(0x0600, 0x09), (0x0601, 0x80)] with a := 0x01 })
      (fun t => (t.a, t.p.n, t.p.z, t.pc)) =
    some (0x81, true, false, 0x0602) := by decide

/-- `ORA ($10,X)` (T42, R113): ($10+$F8) wraps to $08. -/
theorem test_ora_2 :
    after ({ start [(0x0008, 0x34), (0x0009, 0x12), (0x1234, 0x30), (0x0600, 0x01), (0x0601, 0x10)] with a := 0x0F, x := 0xF8 })
      (fun t => (t.a, t.p.n, t.p.z, t.pc)) =
    some (0x3F, false, false, 0x0602) := by decide

/-- `EOR #$FF` (T44, R112): one's complement. -/
theorem test_eor_1 :
    after ({ start [(0x0600, 0x49), (0x0601, 0xFF)] with a := 0x55 })
      (fun t => (t.a, t.p.n, t.p.z, t.pc)) =
    some (0xAA, true, false, 0x0602) := by decide

/-- `EOR ($FF),Y` (T45, R112): pointer high byte from $0000; $12FF+1=$1300. -/
theorem test_eor_2 :
    after ({ start [(0x0000, 0x12), (0x00FF, 0xFF), (0x0100, 0x99), (0x1300, 0x81), (0x0600, 0x51), (0x0601, 0xFF)] with a := 0x00, y := 0x01 })
      (fun t => (t.a, t.p.n, t.p.z, t.pc)) =
    some (0x81, true, false, 0x0602) := by decide

/-- `BIT $10` (T46, R111): AND is 0 but N, V come from the operand. -/
theorem test_bit_1 :
    after ({ start [(0x0010, 0xC0), (0x0600, 0x24), (0x0601, 0x10)] with a := 0x01 })
      (fun t => (t.a, t.p.n, t.p.v, t.p.z, t.pc)) =
    some (0x01, true, true, true, 0x0602) := by decide

/-- `BIT $1234` (T48, R111): V only; C untouched. -/
theorem test_bit_2 :
    after ({ start [(0x1234, 0x40), (0x0600, 0x2C), (0x0601, 0x34), (0x0602, 0x12)] with a := 0x40, p := ⟨false, false, false, false, false, true⟩ })
      (fun t => (t.a, t.p.n, t.p.v, t.p.z, t.p.c, t.pc)) =
    some (0x40, false, true, false, true, 0x0603) := by decide

/-- `ASL` (T51, R121): C in is ignored. -/
theorem test_asl_1 :
    after ({ start [(0x0600, 0x0A)] with a := 0x40, p := ⟨false, false, false, false, false, true⟩ })
      (fun t => (t.a, t.p.n, t.p.z, t.p.c, t.pc)) =
    some (0x80, true, false, false, 0x0601) := by decide

/-- `ASL $10` (T52, R121): memory target; A untouched. -/
theorem test_asl_2 :
    after ({ start [(0x0010, 0xC1), (0x0600, 0x06), (0x0601, 0x10)] with a := 0x11 })
      (fun t => (t.a, t.p.n, t.p.z, t.p.c, t.peek 0x0010, t.pc)) =
    some (0x11, true, false, true, 0x82, 0x0602) := by decide

/-- `LSR` (T55, R122): N always 0. -/
theorem test_lsr_1 :
    after ({ start [(0x0600, 0x4A)] with a := 0xFF, p := ⟨true, false, false, false, false, false⟩ })
      (fun t => (t.a, t.p.n, t.p.z, t.p.c, t.pc)) =
    some (0x7F, false, false, true, 0x0601) := by decide

/-- `LSR $10,X` (T56, R122): $10+$F0 wraps to $00. -/
theorem test_lsr_2 :
    after ({ start [(0x0000, 0x02), (0x0600, 0x56), (0x0601, 0x10)] with x := 0xF0 })
      (fun t => (t.p.n, t.p.z, t.p.c, t.peek 0x0000, t.pc)) =
    some (false, false, false, 0x01, 0x0602) := by decide

/-- `ROL` (T57, R123): C into bit 0, bit 7 into C. -/
theorem test_rol_1 :
    after ({ start [(0x0600, 0x2A)] with a := 0x80, p := ⟨false, false, false, false, false, true⟩ })
      (fun t => (t.a, t.p.n, t.p.z, t.p.c, t.pc)) =
    some (0x01, false, false, true, 0x0601) := by decide

/-- `ROL $1234` (T59, R123): memory. -/
theorem test_rol_2 :
    after ({ start [(0x1234, 0x40), (0x0600, 0x2E), (0x0601, 0x34), (0x0602, 0x12)] with p := ⟨false, false, false, false, false, true⟩ })
      (fun t => (t.p.n, t.p.z, t.p.c, t.peek 0x1234, t.pc)) =
    some (true, false, false, 0x81, 0x0603) := by decide

/-- `ROR` (T61, R124): C into bit 7. -/
theorem test_ror_1 :
    after ({ start [(0x0600, 0x6A)] with a := 0x00, p := ⟨false, false, false, false, false, true⟩ })
      (fun t => (t.a, t.p.n, t.p.z, t.p.c, t.pc)) =
    some (0x80, true, false, false, 0x0601) := by decide

/-- `ROR $10` (T62, R124): memory. -/
theorem test_ror_2 :
    after ({ start [(0x0010, 0x03), (0x0600, 0x66), (0x0601, 0x10)] with p := ⟨false, false, false, false, false, true⟩ })
      (fun t => (t.p.n, t.p.z, t.p.c, t.peek 0x0010, t.pc)) =
    some (true, false, true, 0x81, 0x0602) := by decide

/-- `BCC +5` (T63, R131): taken forward: $0602+5. -/
theorem test_bcc_1 :
    after (start [(0x0600, 0x90), (0x0601, 0x05)])
      (fun t => (t.pc)) =
    some (0x0607) := by decide

/-- `BCC +5` (T64, R131): not taken. -/
theorem test_bcc_2 :
    after ({ start [(0x0600, 0x90), (0x0601, 0x05)] with p := ⟨false, false, false, false, false, true⟩ })
      (fun t => (t.pc)) =
    some (0x0602) := by decide

/-- `BCS -2` (T65, R132): displacement $FE branches to itself. -/
theorem test_bcs_1 :
    after ({ start [(0x0600, 0xB0), (0x0601, 0xFE)] with p := ⟨false, false, false, false, false, true⟩ })
      (fun t => (t.pc)) =
    some (0x0600) := by decide

/-- `BCS -2` (T66, R132): not taken. -/
theorem test_bcs_2 :
    after (start [(0x0600, 0xB0), (0x0601, 0xFE)])
      (fun t => (t.pc)) =
    some (0x0602) := by decide

/-- `BEQ +127` (T67, R133): largest forward. -/
theorem test_beq_1 :
    after ({ start [(0x0600, 0xF0), (0x0601, 0x7F)] with p := ⟨false, false, false, false, true, false⟩ })
      (fun t => (t.pc)) =
    some (0x0681) := by decide

/-- `BEQ -128` (T68, R133): largest backward. -/
theorem test_beq_2 :
    after ({ start [(0x0600, 0xF0), (0x0601, 0x80)] with p := ⟨false, false, false, false, true, false⟩ })
      (fun t => (t.pc)) =
    some (0x0582) := by decide

/-- `BNE -4` (T70, R135): not taken. -/
theorem test_bne_1 :
    after ({ start [(0x0600, 0xD0), (0x0601, 0xFC)] with p := ⟨false, false, false, false, true, false⟩ })
      (fun t => (t.pc)) =
    some (0x0602) := by decide

/-- `BMI +16` (T71, R134): taken. -/
theorem test_bmi_1 :
    after ({ start [(0x0600, 0x30), (0x0601, 0x10)] with p := ⟨true, false, false, false, false, false⟩ })
      (fun t => (t.pc)) =
    some (0x0612) := by decide

/-- `BPL +16` (T72, R136): not taken. -/
theorem test_bpl_1 :
    after ({ start [(0x0600, 0x10), (0x0601, 0x10)] with p := ⟨true, false, false, false, false, false⟩ })
      (fun t => (t.pc)) =
    some (0x0602) := by decide

/-- `BPL -16` (T73, R136): target wraps below $0000: $0007-16. -/
theorem test_bpl_2 :
    after ({ start [(0x0005, 0x10), (0x0006, 0xF0)] with pc := 0x0005 })
      (fun t => (t.pc)) =
    some (0xFFF7) := by decide

/-- `BVC +2` (T74, R137): pcn wraps to $FFFF, target $0001. -/
theorem test_bvc_1 :
    after ({ start [(0xFFFD, 0x50), (0xFFFE, 0x02)] with pc := 0xFFFD })
      (fun t => (t.pc)) =
    some (0x0001) := by decide

/-- `BVS +2` (T75, R138): taken when V=1 (90_conflicts.md C4). -/
theorem test_bvs_1 :
    after ({ start [(0x0600, 0x70), (0x0601, 0x02)] with p := ⟨false, true, false, false, false, false⟩ })
      (fun t => (t.pc)) =
    some (0x0604) := by decide

/-- `BVS +2` (T76, R138): not taken. -/
theorem test_bvs_2 :
    after (start [(0x0600, 0x70), (0x0601, 0x02)])
      (fun t => (t.pc)) =
    some (0x0602) := by decide

/-- `BRK` (T78, R140): the rule's example. -/
theorem test_brk_1 :
    after ({ start [(0xFFFF, 0x80)] with sp := 0xFD, p := ⟨false, false, false, false, true, true⟩ })
      (fun t => (t.sp, t.p.i, [t.peek 0x01FD, t.peek 0x01FC, t.peek 0x01FB], t.pc)) =
    some (0xFA, true, [0x06, 0x02, 0x33], 0x8000) := by decide

/-- `BRK` (T79, R140): stack wraps; I already 1; D kept; pushed byte $BC. -/
theorem test_brk_2 :
    after ({ start [(0xFFFE, 0x34), (0xFFFF, 0x12)] with sp := 0x01, p := ⟨true, false, true, true, false, false⟩ })
      (fun t => (t.sp, t.p.d, t.p.i, [t.peek 0x0101, t.peek 0x0100, t.peek 0x01FF], t.pc)) =
    some (0xFE, true, true, [0x06, 0x02, 0xBC], 0x1234) := by decide

/-- `NOP` (T81, R141): nothing changes. -/
theorem test_nop_1 :
    after ({ start [(0x0600, 0xEA)] with a := 0x12, p := ⟨true, false, false, false, false, true⟩ })
      (fun t => (t.pc)) =
    some (0x0601) := by decide

/-- `RTI` (T82, R142): the rule's example; bits 5, 4 discarded. -/
theorem test_rti_1 :
    after ({ start [(0x01FB, 0x33), (0x01FC, 0x02), (0x01FD, 0x06), (0x0600, 0x40)] with sp := 0xFA, p := ⟨false, false, false, true, false, false⟩ })
      (fun t => (t.sp, t.p, t.pc)) =
    some (0xFD, ⟨false, false, false, false, true, true⟩, 0x0602) := by decide

/-- `RTI` (T83, R142): stack wraps; all six flags set; no i_window. -/
theorem test_rti_2 :
    after ({ start [(0x0100, 0x34), (0x0101, 0x12), (0x01FF, 0xCF), (0x0600, 0x40)] with sp := 0xFE })
      (fun t => (t.sp, t.p, t.pc)) =
    some (0x01, ⟨true, true, true, true, true, true⟩, 0x1234) := by decide

/-- `CLC` (T84, R150): plain. -/
theorem test_clc_1 :
    after ({ start [(0x0600, 0x18)] with p := ⟨false, false, false, false, false, true⟩ })
      (fun t => (t.p.c, t.pc)) =
    some (false, 0x0601) := by decide

/-- `SEC` (T85, R154): plain. -/
theorem test_sec_1 :
    after (start [(0x0600, 0x38)])
      (fun t => (t.p.c, t.pc)) =
    some (true, 0x0601) := by decide

/-- `CLD` (T86, R151): plain. -/
theorem test_cld_1 :
    after ({ start [(0x0600, 0xD8)] with p := ⟨false, false, true, false, false, false⟩ })
      (fun t => (t.p.d, t.pc)) =
    some (false, 0x0601) := by decide

/-- `SED` (T87, R155): plain. -/
theorem test_sed_1 :
    after (start [(0x0600, 0xF8)])
      (fun t => (t.p.d, t.pc)) =
    some (true, 0x0601) := by decide

/-- `CLI` (T88, R152): plain. -/
theorem test_cli_1 :
    after ({ start [(0x0600, 0x58)] with p := ⟨false, false, false, true, false, false⟩ })
      (fun t => (t.p.i, t.pc)) =
    some (false, 0x0601) := by decide

/-- `SEI` (T89, R156): sets i_window. -/
theorem test_sei_1 :
    after (start [(0x0600, 0x78)])
      (fun t => (t.p.i, t.iWindow, t.pc)) =
    some (true, true, 0x0601) := by decide

/-- `SEI` (T90, R156): I already 1: no i_window. -/
theorem test_sei_2 :
    after ({ start [(0x0600, 0x78)] with p := ⟨false, false, false, true, false, false⟩ })
      (fun t => (t.p.i, t.pc)) =
    some (true, 0x0601) := by decide

/-- `CLV` (T91, R153): only V. -/
theorem test_clv_1 :
    after ({ start [(0x0600, 0xB8)] with p := ⟨true, true, false, false, false, true⟩ })
      (fun t => (t.p.v, t.pc)) =
    some (false, 0x0601) := by decide

/-- `INX` (T92, R164): wraps to 0; C untouched. -/
theorem test_inx_1 :
    after ({ start [(0x0600, 0xE8)] with x := 0xFF })
      (fun t => (t.x, t.p.n, t.p.z, t.p.c, t.pc)) =
    some (0x00, false, true, false, 0x0601) := by decide

/-- `INX` (T93, R164): $80: N=1, V untouched. -/
theorem test_inx_2 :
    after ({ start [(0x0600, 0xE8)] with x := 0x7F })
      (fun t => (t.x, t.p.n, t.p.v, t.p.z, t.pc)) =
    some (0x80, true, false, false, 0x0601) := by decide

/-- `INY` (T94, R165): plain. -/
theorem test_iny_1 :
    after ({ start [(0x0600, 0xC8)] with y := 0x00 })
      (fun t => (t.y, t.p.n, t.p.z, t.pc)) =
    some (0x01, false, false, 0x0601) := by decide

/-- `DEX` (T95, R161): wraps to $FF; C untouched. -/
theorem test_dex_1 :
    after ({ start [(0x0600, 0xCA)] with x := 0x00, p := ⟨false, false, false, false, false, true⟩ })
      (fun t => (t.x, t.p.n, t.p.z, t.p.c, t.pc)) =
    some (0xFF, true, false, true, 0x0601) := by decide

/-- `DEX` (T96, R161): zero. -/
theorem test_dex_2 :
    after ({ start [(0x0600, 0xCA)] with x := 0x01 })
      (fun t => (t.x, t.p.n, t.p.z, t.pc)) =
    some (0x00, false, true, 0x0601) := by decide

/-- `DEY` (T97, R162): Y, not X (90_conflicts.md C5). -/
theorem test_dey_1 :
    after ({ start [(0x0600, 0x88)] with y := 0x80, x := 0x33 })
      (fun t => (t.x, t.y, t.p.n, t.p.z, t.pc)) =
    some (0x33, 0x7F, false, false, 0x0601) := by decide

/-- `INC $10` (T98, R163): memory wraps to 0; A untouched. -/
theorem test_inc_1 :
    after ({ start [(0x0010, 0xFF), (0x0600, 0xE6), (0x0601, 0x10)] with a := 0x77 })
      (fun t => (t.a, t.p.n, t.p.z, t.peek 0x0010, t.pc)) =
    some (0x77, false, true, 0x00, 0x0602) := by decide

/-- `INC $12FF,X` (T99, R163): plain. -/
theorem test_inc_2 :
    after ({ start [(0x13FE, 0x7F), (0x0600, 0xFE), (0x0601, 0xFF), (0x0602, 0x12)] with x := 0xFF })
      (fun t => (t.p.n, t.p.z, t.peek 0x13FE, t.pc)) =
    some (true, false, 0x80, 0x0603) := by decide

/-- `DEC $10,X` (T100, R160): opcode $D6 ("Zero Page, X" in the source). -/
theorem test_dec_1 :
    after ({ start [(0x0600, 0xD6), (0x0601, 0x10)] with x := 0x01 })
      (fun t => (t.p.n, t.p.z, t.peek 0x0011, t.pc)) =
    some (true, false, 0xFF, 0x0602) := by decide

/-- `DEC $1234` (T101, R160): zero. -/
theorem test_dec_2 :
    after (start [(0x1234, 0x01), (0x0600, 0xCE), (0x0601, 0x34), (0x0602, 0x12)])
      (fun t => (t.p.n, t.p.z, t.peek 0x1234, t.pc)) =
    some (false, true, 0x00, 0x0603) := by decide

/-- `JMP ($1234)` (T104, R170): ordinary indirect. -/
theorem test_jmp_1 :
    after (start [(0x1234, 0x78), (0x1235, 0x56), (0x0600, 0x6C), (0x0601, 0x34), (0x0602, 0x12)])
      (fun t => (t.pc)) =
    some (0x5678) := by decide

/-- `JMP ($10FF)` (T105, R170): the source's example: high byte from $1000. -/
theorem test_jmp_2 :
    after (start [(0x1000, 0x12), (0x10FF, 0x34), (0x1100, 0x56), (0x0600, 0x6C), (0x0601, 0xFF), (0x0602, 0x10)])
      (fun t => (t.pc)) =
    some (0x1234) := by decide

/-- `JSR $8000` (T106, R171): the rule's example: pushes $0602. -/
theorem test_jsr_1 :
    after ({ start [(0x0600, 0x20), (0x0602, 0x80)] with sp := 0xFF })
      (fun t => (t.sp, [t.peek 0x01FF, t.peek 0x01FE], t.pc)) =
    some (0xFD, [0x06, 0x02], 0x8000) := by decide

/-- `JSR $1234` (T107, R171): stack wraps from $0100 to $01FF. -/
theorem test_jsr_2 :
    after ({ start [(0x0600, 0x20), (0x0601, 0x34), (0x0602, 0x12)] with sp := 0x00 })
      (fun t => (t.sp, [t.peek 0x0100, t.peek 0x01FF], t.pc)) =
    some (0xFE, [0x06, 0x02], 0x1234) := by decide

/-- `RTS` (T110, R172): $FFFF+1 wraps to $0000. -/
theorem test_rts_1 :
    after ({ start [(0x01FE, 0xFF), (0x01FF, 0xFF), (0x0600, 0x60)] with sp := 0xFD })
      (fun t => (t.sp, t.pc)) =
    some (0xFF, 0x0000) := by decide

/-- `RTS` (T111, R172): stack wraps: pulls $0100, $0101. -/
theorem test_rts_2 :
    after ({ start [(0x0100, 0x33), (0x0101, 0x12), (0x0600, 0x60)] with sp := 0xFF })
      (fun t => (t.sp, t.pc)) =
    some (0x01, 0x1234) := by decide

/-- `LDA $10,X` (T114, R180): wraps to $000F. -/
theorem test_lda_1 :
    after ({ start [(0x000F, 0x42), (0x010F, 0x99), (0x0600, 0xB5), (0x0601, 0x10)] with x := 0xFF })
      (fun t => (t.a, t.p.n, t.p.z, t.pc)) =
    some (0x42, false, false, 0x0602) := by decide

/-- `LDA ($20),Y` (T117, R180): $FFFF+$FF wraps to $00FE. -/
theorem test_lda_2 :
    after ({ start [(0x0020, 0xFF), (0x0021, 0xFF), (0x00FE, 0x01), (0x0600, 0xB1), (0x0601, 0x20)] with y := 0xFF })
      (fun t => (t.a, t.p.n, t.p.z, t.pc)) =
    some (0x01, false, false, 0x0602) := by decide

/-- `LDX $10,Y` (T118, R181): Zero Page,Y wraps. -/
theorem test_ldx_1 :
    after ({ start [(0x0008, 0x80), (0x0600, 0xB6), (0x0601, 0x10)] with y := 0xF8 })
      (fun t => (t.x, t.p.n, t.p.z, t.pc)) =
    some (0x80, true, false, 0x0602) := by decide

/-- `LDX $1234,Y` (T119, R181): plain. -/
theorem test_ldx_2 :
    after ({ start [(0x0600, 0xBE), (0x0601, 0x34), (0x0602, 0x12)] with y := 0x02 })
      (fun t => (t.x, t.p.n, t.p.z, t.pc)) =
    some (0x00, false, true, 0x0603) := by decide

/-- `LDY #$7F` (T120, R182): plain. -/
theorem test_ldy_1 :
    after ({ start [(0x0600, 0xA0), (0x0601, 0x7F)] with p := ⟨true, false, false, false, false, false⟩ })
      (fun t => (t.y, t.p.n, t.p.z, t.pc)) =
    some (0x7F, false, false, 0x0602) := by decide

/-- `LDY $1234,X` (T121, R182): plain. -/
theorem test_ldy_2 :
    after ({ start [(0x1235, 0xFF), (0x0600, 0xBC), (0x0601, 0x34), (0x0602, 0x12)] with x := 0x01 })
      (fun t => (t.y, t.p.n, t.p.z, t.pc)) =
    some (0xFF, true, false, 0x0603) := by decide

/-- `STA ($20),Y` (T124, R183): $02FF+1=$0300. -/
theorem test_sta_1 :
    after ({ start [(0x0020, 0xFF), (0x0021, 0x02), (0x0600, 0x91), (0x0601, 0x20)] with a := 0xCD, y := 0x01 })
      (fun t => (t.peek 0x0300, t.pc)) =
    some (0xCD, 0x0602) := by decide

/-- `STA ($20,X)` (T125, R183): plain. -/
theorem test_sta_2 :
    after ({ start [(0x0022, 0x03), (0x0600, 0x81), (0x0601, 0x20)] with a := 0xEF, x := 0x01 })
      (fun t => (t.peek 0x0300, t.pc)) =
    some (0xEF, 0x0602) := by decide

/-- `STX $F0,Y` (T126, R184): Zero Page,Y wraps to $0010. -/
theorem test_stx_1 :
    after ({ start [(0x0600, 0x96), (0x0601, 0xF0)] with x := 0x11, y := 0x20 })
      (fun t => (t.peek 0x0010, t.pc)) =
    some (0x11, 0x0602) := by decide

/-- `STX $1234` (T127, R184): plain. -/
theorem test_stx_2 :
    after ({ start [(0x0600, 0x8E), (0x0601, 0x34), (0x0602, 0x12)] with x := 0x22 })
      (fun t => (t.peek 0x1234, t.pc)) =
    some (0x22, 0x0603) := by decide

/-- `STY $10,X` (T128, R185): plain. -/
theorem test_sty_1 :
    after ({ start [(0x0600, 0x94), (0x0601, 0x10)] with y := 0x33, x := 0x05 })
      (fun t => (t.peek 0x0015, t.pc)) =
    some (0x33, 0x0602) := by decide

/-- `PHA` (T130, R190): write then decrement. -/
theorem test_pha_1 :
    after ({ start [(0x0600, 0x48)] with a := 0x42, sp := 0xFF })
      (fun t => (t.sp, t.peek 0x01FF, t.pc)) =
    some (0xFE, 0x42, 0x0601) := by decide

/-- `PHA` (T131, R190): SP wraps to $FF. -/
theorem test_pha_2 :
    after ({ start [(0x0600, 0x48)] with a := 0x42, sp := 0x00 })
      (fun t => (t.sp, t.peek 0x0100, t.pc)) =
    some (0xFF, 0x42, 0x0601) := by decide

/-- `PHP` (T132, R191): the rule's example: $B5. -/
theorem test_php_1 :
    after ({ start [(0x0600, 0x08)] with sp := 0xFF, p := ⟨true, false, false, true, false, true⟩ })
      (fun t => (t.sp, t.peek 0x01FF, t.pc)) =
    some (0xFE, 0xB5, 0x0601) := by decide

/-- `PHP` (T133, R191): all flags 0: $30 (bits 5 and 4 are 1). -/
theorem test_php_2 :
    after ({ start [(0x0600, 0x08)] with sp := 0xFF })
      (fun t => (t.sp, t.peek 0x01FF, t.pc)) =
    some (0xFE, 0x30, 0x0601) := by decide

/-- `PLA` (T134, R192): increment then read; zero. -/
theorem test_pla_1 :
    after ({ start [(0x0600, 0x68)] with sp := 0xFE })
      (fun t => (t.a, t.sp, t.p.n, t.p.z, t.pc)) =
    some (0x00, 0xFF, false, true, 0x0601) := by decide

/-- `PLA` (T135, R192): SP wraps to $00. -/
theorem test_pla_2 :
    after ({ start [(0x0100, 0x80), (0x0600, 0x68)] with sp := 0xFF })
      (fun t => (t.a, t.sp, t.p.n, t.p.z, t.pc)) =
    some (0x80, 0x00, true, false, 0x0601) := by decide

/-- `PLP` (T136, R193): all six flags set; I 0 to 1 sets i_window. -/
theorem test_plp_1 :
    after ({ start [(0x01FF, 0xFF), (0x0600, 0x28)] with sp := 0xFE })
      (fun t => (t.sp, t.p, t.iWindow, t.pc)) =
    some (0xFF, ⟨true, true, true, true, true, true⟩, true, 0x0601) := by decide

/-- `PLP` (T137, R193): bits 5, 4 ignored; all six cleared. -/
theorem test_plp_2 :
    after ({ start [(0x01FF, 0x30), (0x0600, 0x28)] with sp := 0xFE, p := ⟨false, false, false, true, false, true⟩ })
      (fun t => (t.sp, t.p, t.pc)) =
    some (0xFF, ⟨false, false, false, false, false, false⟩, 0x0601) := by decide

/-- `TAX` (T138, R194): plain. -/
theorem test_tax_1 :
    after ({ start [(0x0600, 0xAA)] with a := 0x80 })
      (fun t => (t.x, t.p.n, t.p.z, t.pc)) =
    some (0x80, true, false, 0x0601) := by decide

/-- `TAY` (T139, R195): plain. -/
theorem test_tay_1 :
    after ({ start [(0x0600, 0xA8)] with a := 0x00, y := 0x11 })
      (fun t => (t.y, t.p.n, t.p.z, t.pc)) =
    some (0x00, false, true, 0x0601) := by decide

/-- `TSX` (T140, R196): sets N. -/
theorem test_tsx_1 :
    after ({ start [(0x0600, 0xBA)] with sp := 0xFD })
      (fun t => (t.x, t.p.n, t.p.z, t.pc)) =
    some (0xFD, true, false, 0x0601) := by decide

/-- `TXA` (T141, R197): plain. -/
theorem test_txa_1 :
    after ({ start [(0x0600, 0x8A)] with x := 0x01, a := 0xFF, p := ⟨true, false, false, false, false, false⟩ })
      (fun t => (t.a, t.p.n, t.p.z, t.pc)) =
    some (0x01, false, false, 0x0601) := by decide

/-- `TXS` (T142, R198): no flags, unlike TSX. -/
theorem test_txs_1 :
    after ({ start [(0x0600, 0x9A)] with x := 0x00, sp := 0xFF, p := ⟨true, false, false, false, false, false⟩ })
      (fun t => (t.sp, t.p.n, t.p.z, t.pc)) =
    some (0x00, true, false, 0x0601) := by decide

/-- `TYA` (T143, R199): plain. -/
theorem test_tya_1 :
    after ({ start [(0x0600, 0x98)] with y := 0x00, a := 0x55 })
      (fun t => (t.a, t.p.n, t.p.z, t.pc)) =
    some (0x00, false, true, 0x0601) := by decide

/-- `BNE +16` (by hand, R135): taken. -/
theorem test_bne_2 :
    after (start [(0x0600, 0xD0), (0x0601, 0x10)])
      (fun t => (t.pc)) =
    some (0x0612) := by decide

/-- `BMI +16` (by hand, R134): not taken. -/
theorem test_bmi_2 :
    after (start [(0x0600, 0x30), (0x0601, 0x10)])
      (fun t => (t.pc)) =
    some (0x0602) := by decide

/-- `BVC +2` (by hand, R137): not taken. -/
theorem test_bvc_2 :
    after ({ start [(0x0600, 0x50), (0x0601, 0x02)] with p := ⟨false, true, false, false, false, false⟩ })
      (fun t => (t.pc)) =
    some (0x0602) := by decide
/-! ### Refusals, decimal mode -/

/-- T145 (30_encoding.md R91). -/
theorem test_undefined_opcode_is_refused :
    refusal (start [(0x0600, 0xFF)]) = some (.undefinedOpcode 0xFF 0x0600) := by decide

/-- T16 (40_arithmetic.md R102), under the policy of reset, `refuse`. -/
theorem test_decimal_adc_is_refused :
    refusal { start [(0x0600, 0x69), (0x0601, 0x01)] with
      a := 0x01, p := ⟨false, false, true, false, false, false⟩ } =
    some (.decimalMode 0x0600) := by decide

/-- 58 + 46 + 1 = 105 and 12 - 21 = -9 as two decimal digits (93_implementation_defined.md GK12). -/
theorem test_decimal_results :
    ((addDecimal 0x58 0x46 true).value, (addDecimal 0x58 0x46 true).c) = (0x05, true) ∧
    ((subDecimal 0x12 0x21 true).value, (subDecimal 0x12 0x21 true).c) = (0x91, false) := by decide

/-- 99 + 1: the sum before the high digit is adjusted is `$A0`, so N; the binary sum is `$9A`, so not Z, although A is 0 (GK12). -/
theorem test_decimal_adc_runs_under_nmos_bcd :
    after { start [(0x0600, 0x69), (0x0601, 0x01)] with
        a := 0x99, p := ⟨false, false, true, false, false, false⟩, decimalPolicy := .nmosBcd }
      (fun t => (t.a, t.p, t.pc)) = some (0x00, ⟨true, false, true, false, false, true⟩, 0x0602) := by decide

/-! ### Regions (20_memory.md R52) -/

/-- STA to ROM has no effect; STA to a device is recorded and changes no memory. -/
theorem test_sta_by_region_kind :
    after { start [(0x0600, 0x8D), (0x0601, 0x34), (0x0602, 0x12)] with a := 0x77, memMap := [⟨0x1234, 0x1234, .rom⟩] }
      (fun t => (t.peek 0x1234, t.deviceWrites)) = some (0x00, []) ∧
    after { start [(0x0600, 0x8D), (0x0601, 0x34), (0x0602, 0x12)] with a := 0x77, memMap := [⟨0x1234, 0x1234, .device⟩] }
      (fun t => (t.peek 0x1234, t.deviceWrites)) = some (0x00, [(0x1234, 0x77)]) := by decide

/-! ### The boundary (vectors E of spec/95_test_vectors.md) -/

/-- One boundary input with nothing asserted and no interrupt taken. -/
def idle : HostInput :=
  { reset := false, nmiEdge := false, irqLevel := false, soEdge := false, take := false }

/-- E1: an IRQ entry, N = C = 1. -/
theorem test_irq_entry :
    after { start [(0xFFFF, 0x07)] with
        pc := 0x1234, p := ⟨true, false, false, false, false, true⟩, host := [{ idle with irqLevel := true, take := true }] }
      (fun t => ([t.peek 0x01FF, t.peek 0x01FE, t.peek 0x01FD], t.sp, t.pc, t.p)) =
    some ([0x12, 0x34, 0xA1], 0xFC, 0x0700, ⟨true, false, false, true, false, true⟩) := by decide

/-- E2: an NMI entry, the stack pointer wrapping. -/
theorem test_nmi_entry :
    after { start [(0xFFFA, 0x78), (0xFFFB, 0x56)] with
        pc := 0x1234, sp := 0x01, p := ⟨false, false, true, true, false, false⟩, host := [{ idle with nmiEdge := true, take := true }] }
      (fun t => ([t.peek 0x0101, t.peek 0x0100, t.peek 0x01FF], t.sp, t.pc, t.p)) =
    some ([0x12, 0x34, 0x2C], 0xFE, 0x5678, ⟨false, false, true, true, false, false⟩) := by decide

/-- E3: I masks the IRQ; the instruction (NOP) runs. -/
theorem test_masked_irq_waits :
    after { start [(0x0600, 0xEA)] with
        p := ⟨false, false, false, true, false, false⟩, host := [{ idle with irqLevel := true, take := true }] }
      (fun t => (t.pc, t.sp)) = some (0x0601, 0xFF) := by decide

/-- E4: the window opened by SEI lets the IRQ in although I is set, and is closed by the boundary. -/
theorem test_window_lets_irq_in :
    after { start [(0x0600, 0xEA), (0xFFFF, 0x07)] with
        p := ⟨false, false, false, true, false, false⟩, iWindow := true, host := [{ idle with irqLevel := true, take := true }] }
      (fun t => (t.pc, t.iWindow, t.peek 0x01FD)) = some (0x0700, false, 0x24) := by decide

/-- E5: NMI and IRQ together: the NMI is taken. -/
theorem test_nmi_before_irq :
    after { start [(0xFFFB, 0x50), (0xFFFF, 0x70)] with host := [{ idle with nmiEdge := true, irqLevel := true, take := true }] }
      (fun t => (t.pc, t.nmiPending, t.p.i)) = some (0x5000, false, true) := by decide

/-- E6: SO sets V, then the instruction runs. -/
theorem test_so_sets_overflow :
    after { start [(0x0600, 0xEA)] with host := [{ idle with soEdge := true }] }
      (fun t => (t.pc, t.p)) = some (0x0601, ⟨false, true, false, false, false, false⟩) := by decide

/-- E7, E8: reset loads PC from `$FFFC`, sets I and drops a pending and a new NMI. The registers are free draws and not tested. -/
theorem test_reset_sequence :
    after { start [(0xFFFD, 0x06)] with
        pc := 0x1234, nmiPending := true, iWindow := true, host := [{ idle with reset := true, nmiEdge := true, take := true }] }
      (fun t => (t.pc, t.p.i, t.nmiPending, t.iWindow)) = some (0x0600, true, false, false) := by decide

/-- E9: with all flags 0, BRK pushes the status `$30`, an IRQ entry `$20`. -/
theorem test_brk_and_irq_status :
    after (start []) (fun t => t.peek 0x01FD) = some 0x30 ∧
    after { start [] with host := [{ idle with irqLevel := true, take := true }] } (fun t => t.peek 0x01FD) = some 0x20 := by decide

/-- 60_exceptions.md R224: at the end of the tape an IRQ level that stays asserted is taken, and I masks it as at any boundary. -/
theorem test_held_irq_is_taken :
    after { start [(0x0600, 0xEA), (0xFFFF, 0x07)] with irqHeld := true } (fun t => (t.pc, t.irqHeld)) = some (0x0700, true) ∧
    after { start [(0x0600, 0xEA), (0xFFFF, 0x07)] with irqHeld := true, p := ⟨false, false, false, true, false, false⟩ }
      (fun t => (t.pc, t.irqHeld)) = some (0x0601, true) := by decide

/-! ### Other bus masters (20_memory.md R58) -/

/-- Their bytes reach RAM, not ROM, before the opcode is fetched: INX runs in place of NOP. -/
theorem test_bus_turn_before_the_fetch :
    after { start [(0x0600, 0xEA), (0x3000, 0x11)] with
        memMap := [⟨0x3000, 0x3000, .rom⟩], bus := [[(0x0600, 0xE8), (0x3000, 0x22)]] }
      (fun t => (t.x, t.peek 0x3000, t.bus)) = some (0x01, 0x11, []) := by decide

/-- LDA (`$10`),Y whose pointer is replaced between its two reads: the old low byte, the new high byte. -/
theorem test_bus_turn_tears_a_pointer :
    after { start [(0x0010, 0x34), (0x0011, 0x30), (0x0600, 0xB1), (0x0601, 0x10), (0x4034, 0x77)] with
        bus := [[], [], [], [(0x0010, 0x99), (0x0011, 0x40)]] }
      (fun t => (t.a, t.peek 0x0010)) = some (0x77, 0x99) := by decide

/-- INC `$10`: a byte another master writes before the read is counted up, one it writes between the read and the write is lost. -/
theorem test_bus_turn_around_inc :
    after { start [(0x0010, 0x07), (0x0600, 0xE6), (0x0601, 0x10)] with bus := [[], [], [(0x0010, 0x50)]] }
      (fun t => t.peek 0x0010) = some 0x51 ∧
    after { start [(0x0010, 0x07), (0x0600, 0xE6), (0x0601, 0x10)] with bus := [[], [], [], [(0x0010, 0x50)]] }
      (fun t => t.peek 0x0010) = some 0x08 := by decide

/-! ### Placing an instruction, assembler lines, cycles -/

/-- The first step after reset runs the placed instruction, also where the map had no memory and an NMI was pending. -/
theorem test_placed_instruction_runs :
    after (State.reset.withFetchWord 16 0x12A9) (fun t => t.a) = some 0x12 ∧
    after ({ State.reset with
        pc := 0xFFFF, p := ⟨false, false, false, false, false, false⟩, nmiPending := true, host := [idle], irqHeld := true, bus := [[(0xFFFF, 0xEA)]]
        memMap := [⟨0, 0xFFFF, .device⟩] }.withFetchWord 24 0x12344C)
      (fun t => t.pc) = some 0x1234 := by decide

/-- The source's syntax lines (95_test_vectors.md S2). -/
theorem test_asm_lines :
    asmLine (.ldxZpy 0x12) = "LDX $12,Y".toList ∧ asmLine (.adcIzx 0x12) = "ADC ($12,X)".toList ∧
    asmLine (.adcIzy 0x12) = "ADC ($12),Y".toList ∧ asmLine (.jmpInd 0x1234) = "JMP ($1234)".toList ∧
    asmLine .aslAcc = "ASL".toList ∧ asmLine (.adcImm 0x12) = "ADC #$12".toList := by decide

/-- 70_reset_and_hazards.md R253: one cycle more where the indexed address is on another page, two for a branch to another page. -/
theorem test_cycles :
    cyclesOf (.ldaAbx 0x12FF) { start [] with x := 0x01 } = 5 ∧ cyclesOf (.ldaAbx 0x12FE) { start [] with x := 0x01 } = 4 ∧
    cyclesOf (.bcc 0x02) { start [] with pc := 0x06FD } = 4 ∧ cyclesOf .brk (start []) = 7 := by decide

/-! ### Witnesses: the hypotheses of each statement hold together somewhere

Each theorem is named after its statement; where a statement has several clauses, each has its state. -/

theorem witness_DecodedBytesAreTheEncoding :
    decode [0xA9, 0x12, 0xEA] = .instr (.ldaImm 0x12) [0xEA] ∧ decode [0xEA] = .instr .nop [] ∧
    decode [0x4C, 0xFF, 0xFF] = .instr (.jmpAbs 0xFFFF) [] := by decide

/-- A one-byte and a three-byte instruction, the second across the end of the address space with its last byte written by another bus
master just before it is read; and clause (b). -/
theorem witness_StepRunsDecodedInstruction :
    (let s := start [(0x0600, 0xEA)];
      s.boundary = .run s ∧
      decode [(s.busTurns 1).peek s.pc, (s.busTurns 2).peek (s.pc + 1), (s.busTurns 3).peek (s.pc + 2)] = .instr .nop [0x00, 0x00] ∧
      ∀ j, j < Instr.length .nop → s.readable (s.pc + BitVec.ofNat 16 j) = true) ∧
    (let s := { start [(0x0000, 0x34), (0xFFFF, 0x4C)] with pc := 0xFFFF, bus := [[], [], [(0x0001, 0x12)]] };
      s.boundary = .run s ∧
      decode [(s.busTurns 1).peek s.pc, (s.busTurns 2).peek (s.pc + 1), (s.busTurns 3).peek (s.pc + 2)] = .instr (.jmpAbs 0x1234) [] ∧
      ∀ j, j < Instr.length (.jmpAbs 0x1234) → s.readable (s.pc + BitVec.ofNat 16 j) = true) ∧
    (start [(0x0600, 0xA9), (0x0601, 0x12)]).fetchInstr = .instr (.ldaImm 0x12) (start [(0x0600, 0xA9), (0x0601, 0x12)]) := by
  decide

theorem witness_UndefinedOpcodeIsRefused :
    (let s := start [(0x0600, 0x02)];
      s.boundary = .run s ∧ s.readable s.pc = true ∧ ((s.busTurns 1).peek s.pc).toNat ∈ unassignedOpcodes) ∧
    (let s := { start [] with pc := 0xFFFF, bus := [[(0xFFFF, 0xFF)]] };
      s.boundary = .run s ∧ s.readable s.pc = true ∧ ((s.busTurns 1).peek s.pc).toNat ∈ unassignedOpcodes) := by decide

/-- The first clause: an NMI that is pending but not taken, and an IRQ that I masks. The second: no level held, and a
level held that I masks. -/
theorem witness_UntakenBoundaryRunsTheInstruction :
    (let s := { start [] with nmiPending := true, host := [idle] };
      s.host = idle :: [] ∧ idle.reset = false ∧ ((s.nmiPending || idle.nmiEdge) && idle.take) = false ∧
      (idle.irqLevel && (!s.p.i || s.iWindow) && idle.take) = false) ∧
    (let h := { idle with irqLevel := true, take := true };
      let s := { State.reset with host := [h] };
      s.host = h :: [] ∧ h.reset = false ∧ ((s.nmiPending || h.nmiEdge) && h.take) = false ∧
      (h.irqLevel && (!s.p.i || s.iWindow) && h.take) = false) ∧
    ((start []).host = [] ∧ (start []).nmiPending = false ∧
      ((start []).irqHeld && (!(start []).p.i || (start []).iWindow)) = false) ∧
    (let s := { State.reset with irqHeld := true };
      s.host = [] ∧ s.nmiPending = false ∧ (s.irqHeld && (!s.p.i || s.iWindow)) = false) := by decide

theorem witness_EveryInstructionCompletesOrIsDecimalRefused :
    (let s := { start [] with p := ⟨false, false, true, false, false, false⟩, decimalPolicy := .refuse };
      (Instr.mnemonic (.adcImm 0) = .adc ∨ Instr.mnemonic (.adcImm 0) = .sbc) ∧ s.p.d = true ∧ s.decimalPolicy = .refuse) ∧
    (let s := { start [] with p := ⟨false, false, true, false, false, false⟩, decimalPolicy := .nmosBcd };
      ¬ ((Instr.mnemonic (.sbcImm 0) = .adc ∨ Instr.mnemonic (.sbcImm 0) = .sbc) ∧ s.p.d = true ∧ s.decimalPolicy = .refuse)) := by
  decide

theorem witness_ResetBoundaryLoadsTheVector :
    (let h := { idle with reset := true };
      let s := { start [] with host := [h] };
      s.host = h :: [] ∧ h.reset = true) := by decide

/-- By an edge at this boundary, and by one that was pending. -/
theorem witness_NmiEntryAtABoundary :
    (let h := { idle with nmiEdge := true, take := true };
      let s := { start [] with host := [h] };
      s.host = h :: [] ∧ h.reset = false ∧ h.take = true ∧ (s.nmiPending || h.nmiEdge) = true) ∧
    (let h := { idle with take := true };
      let s := { start [] with nmiPending := true, host := [h] };
      s.host = h :: [] ∧ h.reset = false ∧ h.take = true ∧ (s.nmiPending || h.nmiEdge) = true) := by decide

/-- With I clear, and with I set but the window open. -/
theorem witness_IrqEntryAtABoundary :
    (let h := { idle with irqLevel := true, take := true };
      let s := { start [] with host := [h] };
      s.host = h :: [] ∧ h.reset = false ∧ h.take = true ∧ (s.nmiPending || h.nmiEdge) = false ∧ h.irqLevel = true ∧
      (!s.p.i || s.iWindow) = true) ∧
    (let h := { idle with irqLevel := true, take := true };
      let s := { State.reset with iWindow := true, host := [h] };
      s.host = h :: [] ∧ h.reset = false ∧ h.take = true ∧ (s.nmiPending || h.nmiEdge) = false ∧ h.irqLevel = true ∧
      (!s.p.i || s.iWindow) = true) := by decide

theorem witness_SoEdgeOnlySetsOverflow :
    (let h := { idle with soEdge := true };
      let s := { start [] with host := [h] };
      s.host = h :: [] ∧ h.soEdge = true) := by decide

/-- SEI, and PLP of a byte with bit 2 set. -/
theorem witness_WindowOnlyAfterSeiOrPlp :
    (∃ t, step (start [(0x0600, 0x78)]) = .next t ∧ t.iWindow = true) ∧
    (∃ t, step { start [(0x01FF, 0x04), (0x0600, 0x28)] with sp := 0xFE } = .next t ∧ t.iWindow = true) :=
  ⟨⟨_, rfl, by decide⟩, ⟨_, rfl, by decide⟩⟩

/-- The three outcomes: not taken, reset, taken. -/
theorem witness_PendingNmiIsNotLost :
    (∃ t, step { start [(0x0600, 0xEA)] with nmiPending := true, host := [idle] } = .next t ∧ t.nmiPending = true) ∧
    (∃ t, step { start [] with nmiPending := true, host := [{ idle with reset := true }] } = .next t) ∧
    (∃ t, step { start [] with host := [{ idle with nmiEdge := true, take := true }] } = .next t ∧ t.nmiPending = false) :=
  ⟨⟨_, rfl, by decide⟩, ⟨_, rfl⟩, ⟨_, rfl, by decide⟩⟩

/-- At once under the quiet host, and at the second boundary of a tape that does not take it at the first. -/
theorem witness_PendingNmiIsTakenOrResetOccurs :
    { start [] with nmiPending := true }.nmiPending = true ∧
    { start [(0x0600, 0xEA)] with nmiPending := true, host := [idle] }.nmiPending = true := by decide

/-- The IRQ where I is clear and where the window is open, and the NMI that comes first, at the end of the tape. -/
theorem witness_HeldIrqIsTaken :
    (let s := { start [(0x0600, 0xEA)] with irqHeld := true, host := [idle] };
      s.irqHeld = true ∧
      ∃ u, Sys2Proof.core.run (s.host.length + 0) s = .next u ∧ u.nmiPending = false ∧ (!u.p.i || u.iWindow) = true) ∧
    (let s := { start [(0x0600, 0x78)] with irqHeld := true, host := [idle] };
      s.irqHeld = true ∧
      ∃ u, Sys2Proof.core.run (s.host.length + 0) s = .next u ∧ u.nmiPending = false ∧ u.p.i = true ∧ u.iWindow = true) ∧
    (let s := { start [] with irqHeld := true, nmiPending := true };
      s.irqHeld = true ∧ ∃ u, Sys2Proof.core.run (s.host.length + 0) s = .next u ∧ u.nmiPending = true) :=
  ⟨⟨rfl, _, rfl, rfl, rfl⟩, ⟨rfl, _, rfl, rfl, rfl, rfl⟩, ⟨rfl, _, rfl, rfl⟩⟩

/-- No turn; a turn whose last write is at the first and at the last address; a write at an address of each kind. -/
theorem witness_AccessesFollowTheBusMasters :
    (start []).bus = [] ∧
    (∀ a : Addr, a = 0x0000 ∨ a = 0xFFFF →
      let s := { start [] with bus := [[(0x0010, 0x11), (a, 0x22)], [(a, 0x33)]] };
      s.bus = ([(0x0010, 0x11)] ++ [(a, 0x22)]) :: [[(a, 0x33)]] ∧ s.kindAt a = .ram ∧ (s.busTurns 1).peek a = 0x22 ∧
      (s.busTurns 2).peek a = 0x33) := by
  refine ⟨rfl, ?_⟩
  rintro a (rfl | rfl) <;> decide

/-- A store of a byte memory must then list, and a store of the byte an unlisted address reads as. -/
theorem witness_StepKeepsMemoryCanonical :
    (let s := { start [(0x0600, 0x85), (0x0601, 0x10)] with a := 0x42 };
      s.wf = true ∧ ∃ t, step s = .next t ∧ t.peek 0x0010 = 0x42) ∧
    (let s := start [(0x0010, 0x42), (0x0600, 0x85), (0x0601, 0x10)];
      s.wf = true ∧ ∃ t, step s = .next t ∧ t.peek 0x0010 = 0x00) :=
  ⟨⟨by decide, _, rfl, by decide⟩, ⟨by decide, _, rfl, by decide⟩⟩

/-- A store to ROM, to a device and to nothing, at the ends of their regions. -/
theorem witness_StepWritesMemoryOnlyInRam :
    (let s : State := { start [(0x0600, 0x85), (0x0601, 0x10)] with
        a := 0x42, memMap := [⟨0x0010, 0x0010, .rom⟩, ⟨0xD000, 0xDFFF, .device⟩, ⟨0xE000, 0xFFFF, .unmapped⟩] };
      (∃ t, step s = .next t) ∧ s.kindAt 0x0010 ≠ .ram ∧ s.kindAt 0xD000 ≠ .ram ∧ s.kindAt 0xDFFF ≠ .ram ∧ s.kindAt 0xFFFF ≠ .ram) :=
  ⟨⟨_, rfl⟩, by decide⟩

theorem witness_StepKeepsTheParameters :
    ∃ t, step { start [(0x0600, 0xEA)] with
      memMap := [⟨0xD000, 0xDFFF, .device⟩], host := [idle], irqHeld := true, bus := [[], [(0x0010, 0x11)]]
      deviceWrites := [(0xD000, 0x01)] } = .next t ∧ t.bus = [[(0x0010, 0x11)]] :=
  ⟨_, rfl, rfl⟩

/-- Readable at both ends of the address space, with no other bus master; not readable at an address of a device and of nothing. -/
theorem witness_OperandByteByRegionKind :
    (start []).bus = [] ∧ (start []).readable (address (.zeroPage 0x00) (start [])) = true ∧
    (start []).readable (address (.absolute 0xFFFF) (start [])) = true ∧
    (let s := { start [] with memMap := [⟨0x0000, 0x0000, .device⟩, ⟨0xFFFF, 0xFFFF, .unmapped⟩] };
      s.readable (address (.zeroPage 0x00) s) = false ∧ s.readable (address (.absolute 0xFFFF) s) = false) := by decide

theorem witness_DirectModesAddresses :
    Place.zeroPageX 0xFF ∈ [Place.zeroPage 0xFF, .zeroPageX 0xFF, .zeroPageY 0xFF, .absolute 0xFFFF, .absoluteX 0xFFFF, .absoluteY 0xFFFF] := by
  decide

/-- Each clause where the pointer's high byte wraps. -/
theorem witness_PointerModesAddresses :
    (let s := { start [] with x := 0xFF };
      (0x00FF : Addr).toNat = ((0x00 : Byte).toNat + s.x.toNat) % 256 ∧
      (0x0000 : Addr).toNat = ((0x00 : Byte).toNat + s.x.toNat + 1) % 256) ∧
    ((0x00FF : Addr).toNat = (0xFF : Byte).toNat ∧ (0x0000 : Addr).toNat = ((0xFF : Byte).toNat + 1) % 256) ∧
    (0x1000 : Addr).toNat = (0x10FF : Addr).toNat / 256 * 256 + ((0x10FF : Addr).toNat + 1) % 256 ∧
    ((start []).bus = [] ∧ (start []).readable 0xFFFF = true ∧ (start []).readable (0xFFFF + 1) = true) := by decide

theorem witness_AdcAddsWithCarry : (start []).p.d = false := by decide

theorem witness_SbcSubtractsWithBorrow : State.reset.p.d = false := by decide

theorem witness_DecimalArithmeticRuns :
    (let s := { start [] with p := ⟨false, false, true, false, false, false⟩, decimalPolicy := .nmosBcd };
      s.p.d = true ∧ s.decimalPolicy = .nmosBcd) := by decide

theorem witness_DecimalResultsAreDecimal : isBcd 0x99 ∧ isBcd 0x00 ∧ ¬ isBcd 0x9A := by
  unfold isBcd
  decide

theorem untouched_of_one_write {s : State} {a c : Addr} {v : Byte} (h : s.bus = [[(a, v)]]) (hac : a ≠ c) : s.Untouched c := by
  unfold State.Untouched
  simpa [h] using hac

theorem untouched_of_quiet {s : State} {c : Addr} (h : s.bus = []) : s.Untouched c := by
  unfold State.Untouched
  simp [h]

/-- JSR at the top of the stack and where the stack pointer wraps, another bus master writing elsewhere; `u` is the state JSR leaves. -/
theorem witness_RtsUndoesJsr :
    ∀ sp : Byte, sp = 0xFF ∨ sp = 0x00 →
      let s := { start [(0x0600, 0x20)] with sp := sp, bus := [[(0x0010, 0x11)]] };
      s.kindAt (stackAddr s.sp) = .ram ∧ s.kindAt (stackAddr (s.sp - 1)) = .ram ∧
      s.Untouched (stackAddr s.sp) ∧ s.Untouched (stackAddr (s.sp - 1)) ∧
      ∃ t u, exec (.jsr 0x1234) s = .next t ∧ u = t ∧ u.sp = t.sp ∧ u.memMap = t.memMap ∧
        u.Untouched (stackAddr s.sp) ∧ u.Untouched (stackAddr (s.sp - 1)) ∧
        u.peek (stackAddr s.sp) = t.peek (stackAddr s.sp) ∧ u.peek (stackAddr (s.sp - 1)) = t.peek (stackAddr (s.sp - 1)) := by
  rintro sp (rfl | rfl) <;>
    exact ⟨rfl, rfl, untouched_of_one_write rfl (by decide), untouched_of_one_write rfl (by decide), _, _, rfl, rfl, rfl, rfl,
      untouched_of_quiet rfl, untouched_of_quiet rfl, rfl, rfl⟩

/-- BRK's entry at the top of the stack and where the stack pointer wraps; `u` is the state the entry leaves. -/
theorem witness_RtiUndoesAnEntry :
    ∀ sp : Byte, sp = 0xFF ∨ sp = 0x01 ∨ sp = 0x00 →
      let s := { start [] with sp := sp, bus := [[(0x0010, 0x11)]] };
      let t := s.enterHandler 0x0602 true irqVector;
      ∃ u, u = t ∧ u.sp = t.sp ∧ u.memMap = t.memMap ∧
        ∀ c ∈ [stackAddr s.sp, stackAddr (s.sp - 1), stackAddr (s.sp - 2)],
          s.kindAt c = .ram ∧ s.Untouched c ∧ u.Untouched c ∧ u.peek c = t.peek c := by
  rintro sp (rfl | rfl | rfl) <;> refine ⟨_, rfl, rfl, rfl, fun c hc => ?_⟩ <;>
    obtain rfl | rfl | rfl : c = _ ∨ c = _ ∨ c = _ := by simpa using hc
  all_goals exact ⟨rfl, untouched_of_one_write rfl (by decide), untouched_of_quiet rfl, rfl⟩

/-- Each clause where the stack pointer wraps. -/
theorem witness_PullReadsAboveTheStackPointer :
    (let s := start [];
      (0x0100 : Addr).toNat = 256 + (s.sp.toNat + 1) % 256 ∧ s.readable 0x0100 = true ∧ s.bus = []) ∧
    (let s := { start [] with sp := 0x00, bus := [[(0x0101, 0x11)]] };
      (0x0100 : Addr).toNat = 256 + s.sp.toNat ∧ s.kindAt 0x0100 = .ram ∧ s.Untouched 0x0100) :=
  ⟨by decide, rfl, rfl, untouched_of_one_write rfl (by decide)⟩

/-- A state for each clause: C, Z, I, D and V each changed by one of their writers. -/
theorem witness_FlagsHaveTheirListedWriters :
    (∃ t, exec .sec (start []) = .next t ∧ t.p.c ≠ (start []).p.c) ∧
    (∃ t, exec (.ldaImm 0x00) (start []) = .next t ∧ t.p.z ≠ (start []).p.z) ∧
    (∃ t, exec .brk (start []) = .next t ∧ t.p.i ≠ (start []).p.i) ∧
    (∃ t, exec .sed (start []) = .next t ∧ t.p.d ≠ (start []).p.d) ∧
    (∃ t, exec (.adcImm 0x7F) { start [] with a := 0x01 } = .next t ∧ t.p.v ≠ (start []).p.v) :=
  ⟨⟨_, rfl, by decide⟩, ⟨_, rfl, by decide⟩, ⟨_, rfl, by decide⟩, ⟨_, rfl, by decide⟩, ⟨_, rfl, by decide⟩⟩

/-- A state for each clause: A, X, Y, SP, memory and PC each changed by one of their writers. -/
theorem witness_RegistersHaveTheirListedWriters :
    (∃ t, exec (.ldaImm 0x01) (start []) = .next t ∧ t.a ≠ (start []).a) ∧
    (∃ t, exec .inx (start []) = .next t ∧ t.x ≠ (start []).x) ∧
    (∃ t, exec .dey (start []) = .next t ∧ t.y ≠ (start []).y) ∧
    (∃ t, exec .pla (start []) = .next t ∧ t.sp ≠ (start []).sp) ∧
    (∃ t, exec (.incZp 0x10) (start []) = .next t ∧ ∀ n, t.mem ≠ ((start []).busTurns n).mem) ∧
    (∃ t, exec (.bcc 0x05) (start []) = .next t ∧ t.pc ≠ 0x0602) :=
  ⟨⟨_, rfl, by decide⟩, ⟨_, rfl, by decide⟩, ⟨_, rfl, by decide⟩, ⟨_, rfl, by decide⟩,
    ⟨_, rfl, fun n => by rw [busTurns_of_quiet rfl]; decide⟩, ⟨_, rfl, by decide⟩⟩

/-- A jump to itself, at the end of the address space too, and a branch to itself. -/
theorem witness_SelfJumpHalts :
    (let s := start [(0x0600, 0x4C), (0x0602, 0x06)];
      s.host = [] ∧ s.irqHeld = false ∧ s.bus = [] ∧ s.nmiPending = false ∧ s.iWindow = false ∧ s.readable s.pc = true ∧ s.readable (s.pc + 1) = true ∧
      s.readable (s.pc + 2) = true ∧ s.peek s.pc = 0x4C ∧ s.peek (s.pc + 1) = lowByte s.pc ∧ s.peek (s.pc + 2) = highByte s.pc) ∧
    (let s := { start [(0x0000, 0xFF), (0x0001, 0xFF), (0xFFFF, 0x4C)] with pc := 0xFFFF };
      s.host = [] ∧ s.irqHeld = false ∧ s.bus = [] ∧ s.nmiPending = false ∧ s.iWindow = false ∧ s.readable s.pc = true ∧ s.readable (s.pc + 1) = true ∧
      s.readable (s.pc + 2) = true ∧ s.peek s.pc = 0x4C ∧ s.peek (s.pc + 1) = lowByte s.pc ∧ s.peek (s.pc + 2) = highByte s.pc) ∧
    (let s := start [(0x0600, 0x90), (0x0601, 0xFE)];
      s.host = [] ∧ s.irqHeld = false ∧ s.bus = [] ∧ s.nmiPending = false ∧ s.iWindow = false ∧ s.readable s.pc = true ∧ s.readable (s.pc + 1) = true ∧
      s.peek (s.pc + 1) = 0xFE ∧ s.peek s.pc = 0x90 ∧ s.p.c = false) ∧
    (let s := { start [(0x0600, 0x70), (0x0601, 0xFE)] with p := ⟨true, true, true, true, true, true⟩ };
      s.host = [] ∧ s.irqHeld = false ∧ s.bus = [] ∧ s.nmiPending = false ∧ s.iWindow = false ∧ s.readable s.pc = true ∧ s.readable (s.pc + 1) = true ∧
      s.peek (s.pc + 1) = 0xFE ∧ s.peek s.pc = 0x70 ∧ s.p.v = true) := by decide

end Sys2Proof.Tests
end

section
/-! PROOFS. Reset at a boundary, and the pointers of the indirect modes and of the vectors: which two bytes are read, and the
number they give. -/

namespace Sys2Proof.Machine

/-! ### Reads that no other bus master precedes -/

/-- With no other bus master, memory that is readable gives the byte it holds, however many reads came before. -/
theorem byteRead_of_quiet {s : State} {c : Addr} (hb : s.bus = []) (hc : s.readable c = true) (n d : Nat) :
    s.byteRead (reads n) d c = s.peek c := by
  have hreads : reads n ++ [none] = reads (n + 1) := List.replicate_succ'.symm
  rw [State.byteRead, if_pos hc, hreads, ← busTurns_peek, busTurns_of_quiet hb]

theorem wordRead_of_quiet {s : State} {lo hi : Addr} (hb : s.bus = []) (hlo : s.readable lo = true) (hhi : s.readable hi = true)
    (d : Nat) : s.wordRead [] d lo hi = (s.peek hi).toNat * 256 + (s.peek lo).toNat := by
  have hlow : s.byteRead [] d lo = s.peek lo := byteRead_of_quiet hb hlo 0 d
  have hhigh : s.byteRead ([] ++ [none]) (d + s.drawsFor lo) hi = s.peek hi := byteRead_of_quiet hb hhi 1 _
  rw [State.wordRead, hlow, hhigh]

/-! ### Where a pointer's two bytes lie -/

theorem zeroPageAddr_toNat (b : Byte) : (zeroPageAddr b).toNat = b.toNat := by simp [zeroPageAddr, joinBytes_toNat]

theorem eq_zeroPageAddr {a : Addr} {b : Byte} (h : a.toNat = b.toNat) : a = zeroPageAddr b :=
  BitVec.eq_of_toNat_eq (h.trans (zeroPageAddr_toNat b).symm)

/-- The pointer at a page-zero address takes its high byte from the next one, which wraps within page zero
(30_encoding.md R85, R86). -/
theorem zeroPagePointer_toNat (s : State) {z : Byte} {lo hi : Addr} (hlo : lo.toNat = z.toNat)
    (hhi : hi.toNat = (z.toNat + 1) % 256) : (s.zeroPagePointer z).1.toNat = s.wordRead [] s.draws lo hi := by
  have hnext : hi.toNat = (z + 1).toNat := by simpa using hhi
  rw [State.zeroPagePointer, readPair_toNat, eq_zeroPageAddr hlo, eq_zeroPageAddr hnext]

@[simp] theorem zeroPagePointer_y (s : State) (z : Byte) : (s.zeroPagePointer z).2.y = s.y := readPair_y s _ _

theorem zext16_toNat (b : Byte) : (zext16 b).toNat = b.toNat := by
  rw [zext16, BitVec.toNat_setWidth_of_le (by decide)]

/-- JMP (Indirect) reads its pointer as the original part does, `Config.jmpIndirectPageWrap`. -/
theorem jumpPointer_eq (s : State) (w : Addr) :
    s.jumpPointer w = s.readPair w (joinBytes (highByte w) (lowByte w + 1)) := rfl

/-- The pointer of JMP (Indirect) takes its high byte from the same page as its low byte (30_encoding.md R84, decision D28). -/
theorem jumpPointer_toNat (s : State) {w hi : Addr} (hhi : hi.toNat = w.toNat / 256 * 256 + (w.toNat + 1) % 256) :
    (s.jumpPointer w).1.toNat = s.wordRead [] s.draws w hi := by
  have hnext : (joinBytes (highByte w) (lowByte w + 1)).toNat = w.toNat / 256 * 256 + (w.toNat + 1) % 256 := by
    simp [joinBytes_toNat, highByte_toNat, lowByte_toNat]
  have haddr : hi = joinBytes (highByte w) (lowByte w + 1) := BitVec.eq_of_toNat_eq (hhi.trans hnext.symm)
  rw [jumpPointer_eq, readPair_toNat, haddr]

/-! ### Reset -/

/-- A reset comes before every other thing a boundary can do (60_exceptions.md R217). -/
theorem step_of_reset {s : State} {h : HostInput} {rest : List HostInput} (hs : s.host = h :: rest) (hr : h.reset = true) :
    step s = .next (s.applyPins h).resetSequence := by
  have hin : s.input = h := by simp [State.input, hs]
  have hb : s.boundary = .entered (s.applyPins h).resetSequence := by
    rw [State.boundary, hin, if_pos hr]
  rw [step, hb]

/-- A state as `Reset()` has it before the vector is read: the unspecified registers drawn, I set, the hidden bits clear. -/
def State.resetRegisters (s : State) : State :=
  let r := Config.resetDraw s.draws
  { s with
    a := r.a, x := r.x, y := r.y, sp := r.sp
    p := { n := r.n, v := r.v, d := r.d, i := true, z := r.z, c := r.c }
    nmiPending := false, iWindow := false, draws := s.draws + 1 }

theorem resetSequence_eq (s : State) :
    s.resetSequence = (s.resetRegisters.read16 resetVector).2.setPc (s.resetRegisters.read16 resetVector).1 := rfl

/-- What is read does not depend on the registers. -/
theorem resetRegisters_wordRead (s : State) (d : Nat) (lo hi : Addr) :
    s.resetRegisters.wordRead [] d lo hi = s.wordRead [] d lo hi := rfl

/-- `Reset()` in full: the registers, PC from the vector, and memory as the turns before the two reads leave it
(70_reset_and_hazards.md R240, R241). -/
theorem resetSequence_full (s : State) :
    ∃ k, s.resetSequence = { s.resetRegisters with
      pc := BitVec.ofNat 16 (s.wordRead [] (s.draws + 1) 0xFFFC 0xFFFD)
      mem := (s.busTurns 2).mem, bus := s.bus.drop 2, draws := k } := by
  have hword : (s.resetRegisters.read16 resetVector).1.toNat = s.wordRead [] (s.draws + 1) 0xFFFC 0xFFFD :=
    (read16_toNat s.resetRegisters resetVector).trans (resetRegisters_wordRead s _ _ _)
  have hpc : (s.resetRegisters.read16 resetVector).1 = BitVec.ofNat 16 (s.wordRead [] (s.draws + 1) 0xFFFC 0xFFFD) := by
    rw [← hword, BitVec.ofNat_toNat, BitVec.setWidth_eq]
  obtain ⟨k, hk⟩ := read16_state s.resetRegisters resetVector
  exact ⟨k, by rw [resetSequence_eq, hpc, hk, busTurns_eq]; rfl⟩

end Sys2Proof.Machine

namespace Sys2Proof.Proofs

open Sys2Proof.Machine Sys2Proof.Claims

/-- Settles O10: the boundary takes the reset first, and `Reset()` in full is taken from the state the pins leave, which
differs from `s` only in fields that the reset writes and in the tape. -/
theorem resetBoundaryLoadsTheVector : Obligations.ResetBoundaryLoadsTheVector := by
  intro s h rest hs hr r
  have hrest : rest = (s.applyPins h).host := by rw [applyPins_host, hs, List.tail_cons]
  obtain ⟨k, hk⟩ := resetSequence_full (s.applyPins h)
  exact ⟨k, by rw [step_of_reset hs hr, hk, hrest]; rfl⟩

/-- Settles O22: every pointer is one pair of reads, so each clause says where its two bytes lie. -/
theorem pointerModesAddresses : Obligations.PointerModesAddresses := by
  intro s b w
  refine ⟨fun lo hi hlo hhi => ?indirectX, fun lo hi hlo hhi => ?indirectY, fun hi hhi => jumpPointer_toNat s hhi,
    read16_toNat s w, fun hb hlo hhi => ?vector, fun lo hi hb hlo hhi => wordRead_of_quiet hb hlo hhi s.draws⟩
  case indirectX =>
    have hsum : (b + s.x).toNat = (b.toNat + s.x.toNat) % 256 := BitVec.toNat_add b s.x
    exact zeroPagePointer_toNat s (hlo.trans hsum.symm) (by rw [hhi, hsum, Nat.mod_add_mod])
  case indirectY =>
    have hptr : (s.zeroPagePointer b).1.toNat = s.wordRead [] s.draws lo hi := zeroPagePointer_toNat s hlo hhi
    calc (address (.indirectY b) s).toNat
        = ((s.zeroPagePointer b).1 + zext16 (s.zeroPagePointer b).2.y).toNat := rfl
      _ = (s.wordRead [] s.draws lo hi + s.y.toNat) % 65536 := by
        rw [BitVec.toNat_add, hptr, zext16_toNat, zeroPagePointer_y]
  case vector => rw [read16_toNat, wordRead_of_quiet hb hlo hhi]

end Sys2Proof.Proofs
end

section
/-! PROOFS. AND, EOR and ORA: every form is `combine` of its own function and operand. -/

namespace Sys2Proof.Proofs

open Sys2Proof.Machine Sys2Proof.Claims

/-- The flags the model writes from a result are those the statements name (10_state.md R19). -/
theorem setNZ_eq_nz (p : Flags) (v : Byte) : p.setNZ v = nz p v := by
  have hz : (v == 0) = decide (v.toNat = 0) := by
    rw [Bool.eq_iff_iff, beq_iff_eq, decide_eq_true_iff]
    exact BitVec.toNat_eq
  rw [Flags.setNZ, hz, nz, bit7]

/-- A form that runs `combine` and whose encoding is as long as its operand says meets its statement (41_logical.md R110, R112,
R113). -/
theorem combines_of_exec {i : Instr} {bytes : List Byte} {src : Source} {f : Byte → Byte → Byte} (hbytes : encode i = bytes)
    (hlength : bytes.length = src.length) (hexec : ∀ s, exec i s = combine f src s) : Combines i bytes src f := by
  refine ⟨hbytes, fun s => ?_⟩
  obtain ⟨k, hk⟩ := combine_eq f src s
  exact ⟨k, by rw [hexec, hk, setNZ_eq_nz, ← hlength]; rfl⟩

/-- Settles O31: the bytes, the length and the meaning of each of the twenty-four forms are its row of the table. -/
theorem logicalInstructionsCombine : Obligations.LogicalInstructionsCombine := by
  unfold Obligations.LogicalInstructionsCombine
  and_intros
  all_goals exact fun _ => combines_of_exec rfl rfl fun _ => rfl

end Sys2Proof.Proofs
end

section
/-! PROOFS. ASL, LSR, ROL and ROR: the bits the model moves are the numbers the statements name, and every form is `shiftTarget`
of its own function and target. -/

namespace Sys2Proof.Machine

/-! ### One write that ends an instruction -/

/-- A write changes no register. -/
theorem memWrite_registersOf (s : State) (a : Addr) (v : Byte) : Claims.RegistersOf s (s.memWrite a v) := by
  rcases memWrite_cases s a v with ⟨_, hw⟩ | ⟨_, hw⟩ | ⟨_, hw⟩ <;> rw [hw] <;> rfl

/-- A state after `n` reads of its own instruction: memory and the other bus masters have moved on, PC is `w`, `k` free values are
used up. -/
def State.afterReads (s : State) (n : Nat) (w : Addr) (k : Nat) : State :=
  { s with pc := w, mem := (s.busTurns n).mem, bus := s.bus.drop n, draws := k }

theorem afterReads_after (s : State) (n : Nat) (w : Addr) (k : Nat) : s.After (s.afterReads n w k) (reads n) :=
  (busTurns_after s n).congr ⟨rfl, rfl, rfl, rfl⟩ ⟨rfl, (busTurns_bus s n).symm, (busTurns_deviceWrites s n).symm⟩

theorem afterReads_memWrite_after (s : State) (n : Nat) (w : Addr) (k : Nat) (a : Addr) (v : Byte) :
    s.After ((s.afterReads n w k).memWrite a v) (reads n ++ [some (a, v)]) :=
  (afterReads_after s n w k).trans rfl (memWrite_after _ a v)

/-! ### The bits of a shift as numbers -/

theorem getLsbD_seven (t : Byte) : t.getLsbD 7 = decide (128 ≤ t.toNat) := BitVec.msb_eq_decide t

theorem getLsbD_zero (t : Byte) : t.getLsbD 0 = decide (t.toNat % 2 = 1) := Nat.testBit_zero t.toNat

theorem shiftLeft_one_eq (t : Byte) : t <<< 1 = BitVec.ofNat 8 (2 * t.toNat) := by
  apply BitVec.eq_of_toNat_eq
  rw [BitVec.toNat_shiftLeft, Nat.shiftLeft_eq, Nat.pow_one, Nat.mul_comm, BitVec.toNat_ofNat]

theorem ushiftRight_one_eq (t : Byte) : t >>> 1 = BitVec.ofNat 8 (t.toNat / 2) := by
  have hlt : t.toNat / 2 < 2 ^ 8 := (Nat.div_le_self ..).trans_lt t.isLt
  apply BitVec.eq_of_toNat_eq
  rw [BitVec.toNat_ushiftRight, Nat.shiftRight_one, BitVec.toNat_ofNat, Nat.mod_eq_of_lt hlt]

/-- A flag put into a bit that a byte has clear is added to it. -/
theorem or_flagBit_of_clear {t : Byte} {k : Nat} (h : t.getLsbD k = false) (c : Bool) :
    t ||| flagBit c k = t + BitVec.ofNat 8 (2 ^ k * c.toNat) := by
  cases c with
  | false => simp [flagBit]
  | true =>
    have hbit : flagBit true k = BitVec.twoPow 8 k := BitVec.eq_of_toNat_eq (BitVec.toNat_twoPow ..).symm
    have hdisjoint : t &&& flagBit true k = 0 := by rw [hbit, BitVec.and_twoPow, h]; rfl
    rw [← BitVec.add_eq_or_of_and_eq_zero _ _ hdisjoint, Bool.toNat_true, Nat.mul_one]
    rfl

end Sys2Proof.Machine

namespace Sys2Proof.Proofs

open Sys2Proof.Machine Sys2Proof.Claims

/-- The model's form of a shift that is given on numbers. -/
def resultOf (g : Byte → Bool → Byte × Bool) (t : Byte) (c : Bool) : ShiftResult := { value := (g t c).1, c := (g t c).2 }

theorem shiftLeft_eq_asl : shiftLeft = resultOf aslOf := by
  funext t c
  rw [shiftLeft, shiftLeft_one_eq, getLsbD_seven, resultOf, aslOf]

theorem shiftRight_eq_lsr : shiftRight = resultOf lsrOf := by
  funext t c
  rw [shiftRight, ushiftRight_one_eq, getLsbD_zero, resultOf, lsrOf]

theorem rotateLeft_eq_rol : rotateLeft = resultOf rolOf := by
  funext t c
  have hclear : (t <<< 1).getLsbD 0 = false := by simp
  rw [rotateLeft, or_flagBit_of_clear hclear, shiftLeft_one_eq, ← BitVec.ofNat_add, Nat.pow_zero, Nat.one_mul, getLsbD_seven,
    resultOf, rolOf]

theorem rotateRight_eq_ror : rotateRight = resultOf rorOf := by
  funext t c
  have hclear : (t >>> 1).getLsbD 7 = false := by simp
  rw [rotateRight, or_flagBit_of_clear hclear, ushiftRight_one_eq, ← BitVec.ofNat_add, getLsbD_zero]
  rfl

theorem setShift_resultOf (p : Flags) (g : Byte → Bool → Byte × Bool) (t : Byte) (c : Bool) :
    p.setShift (resultOf g t c) = { nz p (g t c).1 with c := (g t c).2 } := by
  rw [Flags.setShift, setNZ_eq_nz, resultOf]

/-- A form that makes `n` reads, then one write, and sets the flags meets its statement. -/
theorem stores_of_reads_write {i : Instr} {bytes : List Byte} {n : Nat} {a : State → Addr} {v : State → Byte} {p : State → Flags}
    (hbytes : encode i = bytes)
    (hexec : ∀ s, ∃ k, exec i s = .next (((s.afterReads n (past s bytes) k).memWrite (a s) (v s)).setP (p s))) :
    Stores i bytes (fun s => reads n ++ [some (a s, v s)]) fun s => { s with p := p s, pc := past s bytes } := by
  refine ⟨hbytes, fun s => ?_⟩
  obtain ⟨k, hk⟩ := hexec s
  refine ⟨_, hk, ?accesses, ?registers⟩
  case accesses =>
    exact (afterReads_memWrite_after s n (past s bytes) k (a s) (v s)).congr ⟨rfl, rfl, rfl, rfl⟩ ⟨rfl, rfl, rfl⟩
  case registers => exact congrArg (State.setP · (p s)) (memWrite_registersOf _ (a s) (v s))

/-- A one-byte form that runs `shiftTarget` on A meets its statement (42_shift_rotate.md R120). -/
theorem shiftsA_of_exec {i : Instr} {bytes : List Byte} {f : Byte → Bool → ShiftResult} {g : Byte → Bool → Byte × Bool}
    (hf : f = resultOf g) (hbytes : encode i = bytes) (hlength : bytes.length = 1)
    (hexec : ∀ s, exec i s = shiftTarget f .accumulator s) : ShiftsA i bytes g := by
  subst hf
  refine ⟨hbytes, fun s => ?_⟩
  have hpast : past s bytes = s.pc + 1 := by rw [past, hlength]; rfl
  rw [hexec, shiftTarget_accumulator_eq, setShift_resultOf, ← hpast]
  rfl

/-- A form that runs `shiftTarget` on a memory byte, and whose encoding is as long as its operand says, meets its statement
(42_shift_rotate.md R120). -/
theorem shiftsMemory_of_exec {i : Instr} {bytes : List Byte} {place : Place} {f : Byte → Bool → ShiftResult}
    {g : Byte → Bool → Byte × Bool} (hf : f = resultOf g) (hbytes : encode i = bytes) (hlength : bytes.length = place.length)
    (hexec : ∀ s, exec i s = shiftTarget f (.mem place) s) : ShiftsMemory i bytes place g := by
  subst hf
  refine stores_of_reads_write hbytes fun s => ?_
  obtain ⟨k, hk⟩ := shiftTarget_mem_eq (resultOf g) place s
  exact ⟨k, by rw [hexec, hk, setShift_resultOf, past, hlength]; rfl⟩

/-- Settles O33: ASL moves the bits as doubling does, and the bytes, the length and the target of each form are its row of the
table. -/
theorem aslShiftsLeft : Obligations.AslShiftsLeft := by
  refine ⟨shiftsA_of_exec shiftLeft_eq_asl rfl rfl fun _ => rfl, ?_⟩
  and_intros
  all_goals exact fun _ => shiftsMemory_of_exec shiftLeft_eq_asl rfl rfl fun _ => rfl

/-- Settles O34: LSR moves the bits as halving does. -/
theorem lsrShiftsRight : Obligations.LsrShiftsRight := by
  refine ⟨shiftsA_of_exec shiftRight_eq_lsr rfl rfl fun _ => rfl, ?_⟩
  and_intros
  all_goals exact fun _ => shiftsMemory_of_exec shiftRight_eq_lsr rfl rfl fun _ => rfl

/-- Settles O35: ROL doubles the byte and puts the old C into the bit that doubling leaves clear. -/
theorem rolRotatesLeft : Obligations.RolRotatesLeft := by
  refine ⟨shiftsA_of_exec rotateLeft_eq_rol rfl rfl fun _ => rfl, ?_⟩
  and_intros
  all_goals exact fun _ => shiftsMemory_of_exec rotateLeft_eq_rol rfl rfl fun _ => rfl

/-- Settles O36: ROR halves the byte and puts the old C into the bit that halving leaves clear. -/
theorem rorRotatesRight : Obligations.RorRotatesRight := by
  refine ⟨shiftsA_of_exec rotateRight_eq_ror rfl rfl fun _ => rfl, ?_⟩
  and_intros
  all_goals exact fun _ => shiftsMemory_of_exec rotateRight_eq_ror rfl rfl fun _ => rfl

end Sys2Proof.Proofs
end

section
/-! PROOFS. NOP: the move of PC over its one byte is all it does. -/

namespace Sys2Proof.Machine

theorem exec_nop (s : State) : exec .nop s = .next (s.advance 1) := rfl

/-- Past an instruction of one byte only PC differs, and the sum wraps (10_state.md R13, decision D14). -/
theorem advance_one_eq (s : State) : s.advance 1 = { s with pc := s.pc + 1 } := advance_eq s 1

end Sys2Proof.Machine

namespace Sys2Proof.Proofs

open Sys2Proof.Machine Sys2Proof.Claims

/-- Settles O44: the opcode is `$EA`, and the next state is the start moved over that one byte. -/
theorem nopOnlyAdvancesPc : Obligations.NopOnlyAdvancesPc := by
  refine ⟨?encoding, fun s => ?nextState⟩
  case encoding => rfl
  case nextState => rw [exec_nop, advance_one_eq]

end Sys2Proof.Proofs
end

section
/-! PROOFS. CLC, CLD, CLI, CLV, SEC and SED: every one is `writeFlags` of the flags it starts with, one of them replaced. -/

namespace Sys2Proof.Proofs

open Sys2Proof.Machine Sys2Proof.Claims

/-- An instruction that runs `writeFlags` writes the flags `p` of its start and moves PC over its one byte (45_flag.md). -/
theorem sets_of_exec_eq_writeFlags {i : Instr} {bytes : List Byte} {p : State → Flags} (hbytes : encode i = bytes)
    (hexec : ∀ s, exec i s = writeFlags (p s) s) : Sets i bytes fun s => { s with p := p s, pc := s.pc + 1 } :=
  ⟨hbytes, fun s => (hexec s).trans (writeFlags_eq (p s) s)⟩

/-- Settles O48: each opcode is its row of the table, and each meaning is `writeFlags` with one flag replaced. -/
theorem flagInstructionsWriteOneFlag : Obligations.FlagInstructionsWriteOneFlag := by
  refine ⟨?clc, ?cld, ?cli, ?clv, ?sec, ?sed⟩
  all_goals exact sets_of_exec_eq_writeFlags rfl fun _ => rfl

end Sys2Proof.Proofs
end

section
/-! PROOFS. INC, DEC, INX, INY, DEX and DEY: the bytes the model steps to are the sums the statements name, and every form is
`stepMemory` of its own function and place, or the write of one index register. -/

namespace Sys2Proof.Machine

/-! ### A step by one as a sum modulo 256 -/

theorem add_one_eq_ofNat (t : Byte) : t + 1 = BitVec.ofNat 8 (t.toNat + 1) := BitVec.eq_of_toNat_eq (BitVec.toNat_add t 1)

/-- Subtracting 1 is adding 255 (46_incdec.md R160). -/
theorem sub_one_eq_ofNat (t : Byte) : t - 1 = BitVec.ofNat 8 (t.toNat + 255) :=
  calc t - 1
      = t + 255 := BitVec.sub_eq_add_neg t 1
    _ = BitVec.ofNat 8 (t.toNat + 255) := BitVec.eq_of_toNat_eq (BitVec.toNat_add t 255)

end Sys2Proof.Machine

namespace Sys2Proof.Proofs

open Sys2Proof.Machine Sys2Proof.Claims

/-- A form that runs `stepMemory`, and whose encoding is as long as its operand says, meets its statement (46_incdec.md R160,
R163). -/
theorem stepsMemory_of_exec {i : Instr} {bytes : List Byte} {place : Place} {f : Byte → Byte} {n : Nat}
    (hf : ∀ t, f t = BitVec.ofNat 8 (t.toNat + n)) (hbytes : encode i = bytes) (hlength : bytes.length = place.length)
    (hexec : ∀ s, exec i s = stepMemory f place s) : StepsMemory i bytes place n := by
  refine stores_of_reads_write hbytes fun s => ?_
  obtain ⟨k, hk⟩ := stepMemory_eq f place s
  exact ⟨k, by rw [hexec, hk, hf, setNZ_eq_nz, past, hlength]; rfl⟩

/-- A one-byte form that replaces X by `f` of it meets its statement (46_incdec.md R161, R164). -/
theorem setsX_of_exec {i : Instr} {bytes : List Byte} {f : Byte → Byte} {n : Nat} (hf : ∀ t, f t = BitVec.ofNat 8 (t.toNat + n))
    (hbytes : encode i = bytes) (hexec : ∀ s, exec i s = .next (setXNZ (f s.x) (s.advance 1))) :
    Sets i bytes fun s => { s with
      x := BitVec.ofNat 8 (s.x.toNat + n), p := nz s.p (BitVec.ofNat 8 (s.x.toNat + n)), pc := s.pc + 1 } := by
  refine ⟨hbytes, fun s => ?_⟩
  rw [hexec, hf, setXNZ, advance_one_eq, setNZ_eq_nz]
  rfl

/-- A one-byte form that replaces Y by `f` of it meets its statement (46_incdec.md R162, R165). -/
theorem setsY_of_exec {i : Instr} {bytes : List Byte} {f : Byte → Byte} {n : Nat} (hf : ∀ t, f t = BitVec.ofNat 8 (t.toNat + n))
    (hbytes : encode i = bytes) (hexec : ∀ s, exec i s = .next (setYNZ (f s.y) (s.advance 1))) :
    Sets i bytes fun s => { s with
      y := BitVec.ofNat 8 (s.y.toNat + n), p := nz s.p (BitVec.ofNat 8 (s.y.toNat + n)), pc := s.pc + 1 } := by
  refine ⟨hbytes, fun s => ?_⟩
  rw [hexec, hf, setYNZ, advance_one_eq, setNZ_eq_nz]
  rfl

/-- Settles O37: INC adds 1 and DEC subtracts 1, and the bytes, the length and the place of each form are its row of the
table. -/
theorem memoryStepsByOne : Obligations.MemoryStepsByOne := by
  refine ⟨?incZp, ?incZpx, ?incAbs, ?incAbx, ?decZp, ?decZpx, ?decAbs, ?decAbx⟩
  case incZp | incZpx | incAbs | incAbx => exact fun _ => stepsMemory_of_exec add_one_eq_ofNat rfl rfl fun _ => rfl
  case decZp | decZpx | decAbs | decAbx => exact fun _ => stepsMemory_of_exec sub_one_eq_ofNat rfl rfl fun _ => rfl

/-- Settles O38: each opcode is its row of the table, and each meaning writes its register's own next byte. -/
theorem indexRegistersStepByOne : Obligations.IndexRegistersStepByOne := by
  refine ⟨?inx, ?iny, ?dex, ?dey⟩
  case inx => exact setsX_of_exec add_one_eq_ofNat rfl fun _ => rfl
  case iny => exact setsY_of_exec add_one_eq_ofNat rfl fun _ => rfl
  case dex => exact setsX_of_exec sub_one_eq_ofNat rfl fun _ => rfl
  case dey => exact setsY_of_exec sub_one_eq_ofNat rfl fun _ => rfl

end Sys2Proof.Proofs
end

section
/-! PROOFS. LDA, LDX, LDY, STA, STX and STY: every load is `loadInto` of its own register and operand, every store `storeFrom` of
its own register and place. -/

namespace Sys2Proof.Machine

/-! ### A register written with its flags -/

/-- N and Z as the statements name them (10_state.md R19). -/
theorem setANZ_eq (v : Byte) (s : State) : setANZ v s = { s with a := v, p := Claims.nz s.p v } := by
  rw [setANZ, Proofs.setNZ_eq_nz]; rfl

theorem setXNZ_eq (v : Byte) (s : State) : setXNZ v s = { s with x := v, p := Claims.nz s.p v } := by
  rw [setXNZ, Proofs.setNZ_eq_nz]; rfl

theorem setYNZ_eq (v : Byte) (s : State) : setYNZ v s = { s with y := v, p := Claims.nz s.p v } := by
  rw [setYNZ, Proofs.setNZ_eq_nz]; rfl

/-! ### A store writes no flag -/

/-- The flags a store starts with are those it leaves (48_load_store.md). -/
theorem memWrite_setP_self (s : State) (a : Addr) (v : Byte) : (s.memWrite a v).setP s.p = s.memWrite a v := by
  rw [← memWrite_p s a v, setP_self]

end Sys2Proof.Machine

namespace Sys2Proof.Proofs

open Sys2Proof.Machine Sys2Proof.Claims

/-- A form that runs `loadInto put`, and whose encoding is as long as its operand says, leaves what `put` makes of the operand byte
and the start past the instruction. `put'` is `put` said as a record update, which has nothing to do with memory, the bus and the
draw counter (48_load_store.md R180 to R182). -/
theorem leaves_of_exec_eq_loadInto {i : Instr} {bytes : List Byte} {src : Source} {put put' : Byte → State → State}
    (hput : ∀ v s, put v s = put' v s)
    (hframe : ∀ v s m b k, put' v { s with mem := m, bus := b, draws := k } = { put' v s with mem := m, bus := b, draws := k })
    (hbytes : encode i = bytes) (hlength : bytes.length = src.length) (hexec : ∀ s, exec i s = loadInto put src s) :
    Leaves i bytes src.reads fun s => put' (operand src s) (s.setPc (past s bytes)) := by
  refine ⟨hbytes, fun s => ?_⟩
  obtain ⟨k, hk⟩ := loadInto_eq put src s
  exact ⟨k, by rw [hexec, hk, hput, ← hframe, past, hlength]; rfl⟩

theorem loadsA_of_exec {i : Instr} {bytes : List Byte} {src : Source} (hbytes : encode i = bytes)
    (hlength : bytes.length = src.length) (hexec : ∀ s, exec i s = opLda src s) : LoadsA i bytes src :=
  leaves_of_exec_eq_loadInto setANZ_eq (fun _ _ _ _ _ => rfl) hbytes hlength hexec

theorem loadsX_of_exec {i : Instr} {bytes : List Byte} {src : Source} (hbytes : encode i = bytes)
    (hlength : bytes.length = src.length) (hexec : ∀ s, exec i s = opLdx src s) : LoadsX i bytes src :=
  leaves_of_exec_eq_loadInto setXNZ_eq (fun _ _ _ _ _ => rfl) hbytes hlength hexec

theorem loadsY_of_exec {i : Instr} {bytes : List Byte} {src : Source} (hbytes : encode i = bytes)
    (hlength : bytes.length = src.length) (hexec : ∀ s, exec i s = opLdy src s) : LoadsY i bytes src :=
  leaves_of_exec_eq_loadInto setYNZ_eq (fun _ _ _ _ _ => rfl) hbytes hlength hexec

/-- A form that runs `storeFrom` of a register that PC, memory, the bus and the draw counter are no part of, and whose encoding is as
long as its operand says, meets its statement; the flags it leaves are those of its start (48_load_store.md R183 to R185). -/
theorem storesReg_of_exec {i : Instr} {bytes : List Byte} {place : Place} {reg : State → Byte}
    (hreg : ∀ s w m b k, reg { s with pc := w, mem := m, bus := b, draws := k } = reg s)
    (hbytes : encode i = bytes) (hlength : bytes.length = place.length) (hexec : ∀ s, exec i s = storeFrom reg place s) :
    StoresReg i bytes place reg := by
  refine stores_of_reads_write (p := State.p) hbytes fun s => ?_
  obtain ⟨k, hk⟩ := storeFrom_eq reg (hreg s) place
  have hflags := memWrite_setP_self (s.afterReads place.pointerReads (past s bytes) k) (address place s) (reg s)
  exact ⟨k, by rw [hexec, hk, ← hlength]; exact congrArg Host.Outcome.next hflags.symm⟩

/-- Settles O23: the bytes, the length and the operand of each of the eighteen forms are its row of the table, and its meaning is
the load of its own register. -/
theorem loadsSetRegisterAndNZ : Obligations.LoadsSetRegisterAndNZ := by
  refine ⟨?ldaImm, ?ldaZp, ?ldaZpx, ?ldaAbs, ?ldaAbx, ?ldaAby, ?ldaIzx, ?ldaIzy, ?ldxImm, ?ldxZp, ?ldxZpy, ?ldxAbs, ?ldxAby,
    ?ldyImm, ?ldyZp, ?ldyZpx, ?ldyAbs, ?ldyAbx⟩
  case ldaImm | ldaZp | ldaZpx | ldaAbs | ldaAbx | ldaAby | ldaIzx | ldaIzy => exact fun _ => loadsA_of_exec rfl rfl fun _ => rfl
  case ldxImm | ldxZp | ldxZpy | ldxAbs | ldxAby => exact fun _ => loadsX_of_exec rfl rfl fun _ => rfl
  case ldyImm | ldyZp | ldyZpx | ldyAbs | ldyAbx => exact fun _ => loadsY_of_exec rfl rfl fun _ => rfl

/-- Settles O24: the bytes, the length and the place of each of the thirteen forms are its row of the table, and its meaning is the
store of its own register. -/
theorem storesWriteOneByteAndNoFlag : Obligations.StoresWriteOneByteAndNoFlag := by
  unfold Obligations.StoresWriteOneByteAndNoFlag
  and_intros
  all_goals exact fun _ => storesReg_of_exec (fun _ _ _ _ _ => rfl) rfl rfl fun _ => rfl

end Sys2Proof.Proofs
end

section
/-! PROOFS. TAX, TAY, TSX, TXA, TYA and TXS: every one is the write of its destination register from a register of the start; TXS
alone writes SP, which has no flags with it. -/

namespace Sys2Proof.Machine

/-- The stack pointer is written without N and Z (49_stack_transfer.md R198). -/
theorem setSp_eq (v : Byte) (s : State) : s.setSp v = { s with sp := v } := rfl

end Sys2Proof.Machine

namespace Sys2Proof.Proofs

open Sys2Proof.Machine Sys2Proof.Claims

/-- A one-byte form whose meaning is `put`, the write of its destination, from the register `src` of its start leaves what `put` makes
of that byte and the start moved over the opcode. `put'` is `put` said as a record update (49_stack_transfer.md). -/
theorem sets_of_exec_eq_put {i : Instr} {bytes : List Byte} {put put' : Byte → State → State} {src : State → Byte}
    (hput : ∀ v s, put v s = put' v s) (hbytes : encode i = bytes)
    (hexec : ∀ s, exec i s = .next (put (src s) (s.advance 1))) :
    Sets i bytes fun s => put' (src s) { s with pc := s.pc + 1 } :=
  ⟨hbytes, fun s => by rw [hexec, hput, advance_one_eq]⟩

/-- Settles O53: each opcode is its row of the table, and each meaning is the write of its destination, with N and Z where that is A,
X or Y and without them where it is SP. -/
theorem transfersCopy : Obligations.TransfersCopy := by
  refine ⟨?tax, ?tay, ?tsx, ?txa, ?tya, ?txs⟩
  case tax | tsx => exact sets_of_exec_eq_put setXNZ_eq rfl fun _ => rfl
  case tay => exact sets_of_exec_eq_put setYNZ_eq rfl fun _ => rfl
  case txa | tya => exact sets_of_exec_eq_put setANZ_eq rfl fun _ => rfl
  case txs => exact sets_of_exec_eq_put setSp_eq rfl fun _ => rfl

end Sys2Proof.Proofs
end

section
/-! PROOFS. The decoder and the encoder: a row of the opcode map and the Encodings tables say the same of each instruction. -/

namespace Sys2Proof

/-- What the opcode map asks for, given an operand, is an instruction: none for F1, a byte for F2, a word for F3 (30_encoding.md R70). -/
inductive Shape.Builds : Shape → OperandField → Instr → Prop
  | implied (i : Instr) : Builds (.implied i) .none i
  | byte (f : Byte → Instr) (b : Byte) : Builds (.byte f) (.byte b) (f b)
  | word (f : Addr → Instr) (w : Addr) : Builds (.word f) (.word w) (f w)

/-- The encoder's opcode is the opcode map's row of the instruction. -/
theorem decodeOpcode_opcodeOf (i : Instr) : ∃ shape : Shape, shape.Builds i.operand i ∧ decodeOpcode (opcodeOf i) = some shape := by
  cases i <;> refine ⟨_, by constructor, ?_⟩ <;> dsimp only [opcodeOf] <;> rfl

/-- The decoder takes what the encoder writes for an operand, low byte first. -/
theorem decode_of_builds {op : Byte} {shape : Shape} {field : OperandField} {i : Instr} (hop : decodeOpcode op = some shape)
    (hbuilds : shape.Builds field i) (rest : List Byte) : decode (op :: (encodeOperand field ++ rest)) = .instr i rest := by
  cases hbuilds with
  | implied i => simp [decode, hop, encodeOperand]
  | byte f b => simp [decode, hop, encodeOperand]
  | word f w => simp [decode, hop, encodeOperand]

/-- A row of the opcode map agrees with the Encodings tables, whatever the operand. -/
def Shape.Fits (op : Byte) (shape : Shape) : Prop := ∀ field i, shape.Builds field i → opcodeOf i = op ∧ i.operand = field

theorem mem_of_lookupOpcode {op : Nat} {row : List (Nat × Shape)} {shape : Shape} (h : lookupOpcode op row = some shape) :
    (op, shape) ∈ row := by
  induction row with
  | nil => cases h
  | cons entry rest ih =>
    rw [lookupOpcode] at h
    split at h
    next heq => cases h; exact heq ▸ List.mem_cons_self
    next => exact List.mem_cons_of_mem _ (ih h)

/-- Every entry of the opcode map agrees with the Encodings tables. -/
theorem gridRow_fits (n : Nat) : ∀ entry ∈ gridRow n, Shape.Fits (BitVec.ofNat 8 entry.1) entry.2 := by
  unfold gridRow
  split
  all_goals
    intro entry hentry
    fin_cases hentry
  all_goals
    rintro _ _ ⟨⟩
    exact ⟨rfl, rfl⟩

theorem decodeOpcode_fits {op : Byte} {shape : Shape} (h : decodeOpcode op = some shape) : shape.Fits op := by
  simpa using gridRow_fits _ _ (mem_of_lookupOpcode h)

/-- Whatever the decoder answers, it has read a row of the opcode map and that row's operand bytes. -/
theorem decode_eq_instr {bytes : List Byte} {i : Instr} {rest : List Byte} (h : decode bytes = .instr i rest) :
    ∃ op shape field, decodeOpcode op = some shape ∧ shape.Builds field i ∧ bytes = op :: (encodeOperand field ++ rest) := by
  unfold decode at h
  split at h
  next => cases h
  next op bytes =>
    split at h <;> cases h
    next hop => exact ⟨op, _, _, hop, .implied _, rfl⟩
    next f b1 hop => exact ⟨op, _, _, hop, .byte f b1, rfl⟩
    next f b1 b2 hop => exact ⟨op, _, _, hop, .word f _, by simp [encodeOperand]⟩

end Sys2Proof

namespace Sys2Proof.Proofs

open Sys2Proof.Machine Sys2Proof.Claims

/-- Settles O1: the encoder's opcode byte is the opcode map's row of the instruction, and the decoder puts the operand bytes together
again. -/
theorem decodeInvertsEncode : Obligations.DecodeInvertsEncode := by
  intro i rest
  obtain ⟨shape, hbuilds, hop⟩ := decodeOpcode_opcodeOf i
  exact decode_of_builds hop hbuilds rest

/-- Settles O2: every row of the opcode map has the opcode and the operand of the encoder's tables, so the bytes that were read are
those the encoder writes. -/
theorem decodedBytesAreTheEncoding : Obligations.DecodedBytesAreTheEncoding := by
  intro bytes i rest h
  obtain ⟨op, shape, field, hop, hbuilds, hbytes⟩ := decode_eq_instr h
  obtain ⟨hopcode, hoperand⟩ := decodeOpcode_fits hop field i hbuilds
  rw [hbytes, encode, hopcode, hoperand, List.cons_append]

/-- Settles O3: the map is looked up at each of the 256 bytes. -/
theorem unassignedOpcodesAreTheListed : Obligations.UnassignedOpcodesAreTheListed := by
  refine ⟨?map, rfl⟩
  case map => decide

/-- Settles O4: each word is a list of bytes, which the decoder reads. -/
theorem writtenWordsDecode : Obligations.WrittenWordsDecode := by
  unfold Obligations.WrittenWordsDecode
  and_intros
  all_goals rfl

end Sys2Proof.Proofs
end

section
/-! PROOFS. What `exec` can do, said once: the next state of every instruction by what it writes, and the one refusal. -/

namespace Sys2Proof.Machine

/-- The address after an instruction's bytes (30_encoding.md R72). -/
def nextPc (i : Instr) (s : State) : Addr := s.pc + BitVec.ofNat 16 i.length

/-- ADC or SBC with D = 1 where the policy is `refuse` (40_arithmetic.md R102). -/
def DecimalRefused (i : Instr) (s : State) : Prop :=
  (i.mnemonic = .adc ∨ i.mnemonic = .sbc) ∧ s.p.d = true ∧ s.decimalPolicy = .refuse

/-- The next states an instruction has, by what it writes: after its `n` reads the registers named, and at most one sequence of
writes to memory. Which values are written is left open. -/
inductive Answers (i : Instr) (s : State) : State → Prop
  | alu (n k : Nat) (r : AluResult) (h : i.mnemonic ∈ ([.adc, .sbc] : List Mnemonic)) :
      Answers i s (((s.afterReads n (nextPc i s) k).setA r.value).setP (s.p.setAlu r))
  | compare (n k : Nat) (reg m : Byte) (h : i.mnemonic ∈ ([.cmp, .cpx, .cpy] : List Mnemonic)) :
      Answers i s ((s.afterReads n (nextPc i s) k).setP (s.p.compare reg m))
  | bitTest (n k : Nat) (m : Byte) (h : i.mnemonic = .bit) :
      Answers i s ((s.afterReads n (nextPc i s) k).setP (s.p.bitTest s.a m))
  | intoA (n k : Nat) (v : Byte) (h : i.mnemonic ∈ ([.and, .eor, .ora, .lda, .txa, .tya] : List Mnemonic)) :
      Answers i s (setANZ v (s.afterReads n (nextPc i s) k))
  | intoX (n k : Nat) (v : Byte) (h : i.mnemonic ∈ ([.ldx, .tax, .tsx, .inx, .dex] : List Mnemonic)) :
      Answers i s (setXNZ v (s.afterReads n (nextPc i s) k))
  | intoY (n k : Nat) (v : Byte) (h : i.mnemonic ∈ ([.ldy, .tay, .iny, .dey] : List Mnemonic)) :
      Answers i s (setYNZ v (s.afterReads n (nextPc i s) k))
  | shiftA (r : ShiftResult) (h : i.mnemonic ∈ ([.asl, .lsr, .rol, .ror] : List Mnemonic)) :
      Answers i s (((s.setPc (nextPc i s)).setA r.value).setP (s.p.setShift r))
  | shiftMem (n k : Nat) (a : Addr) (r : ShiftResult) (h : i.mnemonic ∈ ([.asl, .lsr, .rol, .ror] : List Mnemonic)) :
      Answers i s (((s.afterReads n (nextPc i s) k).memWrite a r.value).setP (s.p.setShift r))
  | stepMem (n k : Nat) (a : Addr) (v : Byte) (h : i.mnemonic ∈ ([.inc, .dec] : List Mnemonic)) :
      Answers i s (((s.afterReads n (nextPc i s) k).memWrite a v).setP (s.p.setNZ v))
  | store (n k : Nat) (a : Addr) (v : Byte) (h : i.mnemonic ∈ ([.sta, .stx, .sty] : List Mnemonic)) :
      Answers i s ((s.afterReads n (nextPc i s) k).memWrite a v)
  | jump (n k : Nat) (w : Addr) (h : i.mnemonic ∈ ([.bcc, .bcs, .beq, .bmi, .bne, .bpl, .bvc, .bvs, .jmp] : List Mnemonic)) :
      Answers i s (s.afterReads n w k)
  | moveOn (h : i.mnemonic = .nop) : Answers i s (s.setPc (nextPc i s))
  | writeC (b : Bool) (h : i.mnemonic ∈ ([.clc, .sec] : List Mnemonic)) :
      Answers i s ((s.setPc (nextPc i s)).setP { s.p with c := b })
  | writeD (b : Bool) (h : i.mnemonic ∈ ([.cld, .sed] : List Mnemonic)) :
      Answers i s ((s.setPc (nextPc i s)).setP { s.p with d := b })
  | clearI (h : i.mnemonic = .cli) : Answers i s ((s.setPc (nextPc i s)).setP { s.p with i := false })
  | clearV (h : i.mnemonic = .clv) : Answers i s ((s.setPc (nextPc i s)).setP { s.p with v := false })
  | raiseI (h : i = .sei) : Answers i s ((s.setPc (nextPc i s)).openWindowFor { s.p with i := true })
  | intoSp (v : Byte) (h : i.mnemonic = .txs) : Answers i s ((s.setPc (nextPc i s)).setSp v)
  | push (v : Byte) (h : i.mnemonic ∈ ([.pha, .php] : List Mnemonic)) : Answers i s ((s.setPc (nextPc i s)).push8 v)
  | pullA (k : Nat) (v : Byte) (h : i.mnemonic = .pla) :
      Answers i s (setANZ v ((s.afterReads 1 (nextPc i s) k).setSp (s.sp + 1)))
  | pullP (k : Nat) (p : Flags) (h : i = .plp) :
      Answers i s (((s.afterReads 1 (nextPc i s) k).setSp (s.sp + 1)).openWindowFor p)
  | call (ret w : Addr) (h : i.mnemonic = .jsr) : Answers i s (((s.setPc (nextPc i s)).push16 ret).setPc w)
  | returnTo (k : Nat) (w : Addr) (h : i.mnemonic = .rts) : Answers i s ((s.afterReads 2 w k).setSp (s.sp + 1 + 1))
  | enter (ret vector : Addr) (h : i.mnemonic = .brk) :
      Answers i s ((s.setPc (nextPc i s)).enterHandler ret true vector)
  | leave (k : Nat) (w : Addr) (p : Flags) (h : i.mnemonic = .rti) :
      Answers i s (((s.afterReads 3 w k).setSp (s.sp + 1 + 1 + 1)).setP p)

/-- The instruction answers a next state, one of those its kind has. -/
def Finishes (i : Instr) (s : State) : Prop := ∃ t, exec i s = .next t ∧ Answers i s t

/-- What `exec` answers: the decimal refusal, or a next state. -/
def Settled (i : Instr) (s : State) : Prop :=
  (DecimalRefused i s ∧ exec i s = .refused (.decimalMode s.pc)) ∨ (¬ DecimalRefused i s ∧ Finishes i s)

theorem Finishes.settled {i : Instr} {s : State} (h : Finishes i s) (hadc : i.mnemonic ≠ .adc) (hsbc : i.mnemonic ≠ .sbc) :
    Settled i s := .inr ⟨fun hrefused => hrefused.1.elim hadc hsbc, h⟩

section
variable {i : Instr} {s : State} {src : Source} {place : Place}

theorem settled_of_addOrSubtract {binary decimal : Byte → Byte → Bool → AluResult} (hm : i.mnemonic = .adc ∨ i.mnemonic = .sbc)
    (hexec : exec i s = addOrSubtract binary decimal src s) (hlength : i.length = src.length) : Settled i s := by
  rw [addOrSubtract_eq] at hexec
  by_cases hd : s.p.d = true ∧ s.decimalPolicy = .refuse
  · exact .inl ⟨⟨hm, hd⟩, by rw [hexec, if_pos hd]⟩
  · obtain ⟨k, hk⟩ := accumulate_eq (if s.p.d = true then decimal else binary) src s
    refine .inr ⟨fun h => hd h.2, _, by rw [hexec, if_neg hd, hk], ?_⟩
    rw [← hlength]
    exact .alu src.reads k _ (by simpa using hm)

theorem finishes_of_compareWith {reg : State → Byte} (hm : i.mnemonic ∈ ([.cmp, .cpx, .cpy] : List Mnemonic))
    (hreg : ∀ w m b k, reg { s with pc := w, mem := m, bus := b, draws := k } = reg s)
    (hexec : exec i s = compareWith reg src s) (hlength : i.length = src.length) : Finishes i s := by
  obtain ⟨k, hk⟩ := compareWith_eq reg hreg src
  exact ⟨_, hexec.trans hk, hlength ▸ .compare src.reads k _ _ hm⟩

theorem finishes_of_opBit (hm : i.mnemonic = .bit) (hexec : exec i s = opBit src s) (hlength : i.length = src.length) :
    Finishes i s := by
  obtain ⟨k, hk⟩ := opBit_eq src s
  exact ⟨_, hexec.trans hk, hlength ▸ .bitTest src.reads k _ hm⟩

theorem finishes_of_combine {f : Byte → Byte → Byte} (hm : i.mnemonic ∈ ([.and, .eor, .ora] : List Mnemonic))
    (hexec : exec i s = combine f src s) (hlength : i.length = src.length) : Finishes i s := by
  obtain ⟨k, hk⟩ := combine_eq f src s
  exact ⟨_, hexec.trans hk, hlength ▸ .intoA src.reads k _ (List.mem_append_left _ hm)⟩

theorem finishes_of_loadInto {put : Byte → State → State}
    (hput : ∀ k v, Answers i s (put v (s.afterReads src.reads (nextPc i s) k)))
    (hexec : exec i s = loadInto put src s) (hlength : i.length = src.length) : Finishes i s := by
  obtain ⟨k, hk⟩ := loadInto_eq put src s
  exact ⟨_, hexec.trans hk, hlength ▸ hput k _⟩

theorem finishes_of_storeFrom {reg : State → Byte} (hm : i.mnemonic ∈ ([.sta, .stx, .sty] : List Mnemonic))
    (hreg : ∀ w m b k, reg { s with pc := w, mem := m, bus := b, draws := k } = reg s)
    (hexec : exec i s = storeFrom reg place s) (hlength : i.length = place.length) : Finishes i s := by
  obtain ⟨k, hk⟩ := storeFrom_eq reg hreg place
  exact ⟨_, hexec.trans hk, hlength ▸ .store place.pointerReads k _ _ hm⟩

theorem finishes_of_stepMemory {f : Byte → Byte} (hm : i.mnemonic ∈ ([.inc, .dec] : List Mnemonic))
    (hexec : exec i s = stepMemory f place s) (hlength : i.length = place.length) : Finishes i s := by
  obtain ⟨k, hk⟩ := stepMemory_eq f place s
  exact ⟨_, hexec.trans hk, hlength ▸ .stepMem (place.pointerReads + 1) k _ _ hm⟩

theorem finishes_of_shiftTarget_mem {f : Byte → Bool → ShiftResult} (hm : i.mnemonic ∈ ([.asl, .lsr, .rol, .ror] : List Mnemonic))
    (hexec : exec i s = shiftTarget f (.mem place) s) (hlength : i.length = place.length) : Finishes i s := by
  obtain ⟨k, hk⟩ := shiftTarget_mem_eq f place s
  exact ⟨_, hexec.trans hk, hlength ▸ .shiftMem (place.pointerReads + 1) k _ _ hm⟩

theorem finishes_of_shiftTarget_accumulator {f : Byte → Bool → ShiftResult}
    (hm : i.mnemonic ∈ ([.asl, .lsr, .rol, .ror] : List Mnemonic)) (hexec : exec i s = shiftTarget f .accumulator s)
    (hlength : i.length = 1) : Finishes i s :=
  have hpc : nextPc i s = s.pc + 1 := by rw [nextPc, hlength]; rfl
  ⟨_, hexec.trans (shiftTarget_accumulator_eq f s), hpc ▸ .shiftA (f s.a s.p.c) hm⟩

theorem finishes_of_branchIf {taken : Bool} {d : Byte}
    (hm : i.mnemonic ∈ ([.bcc, .bcs, .beq, .bmi, .bne, .bpl, .bvc, .bvs] : List Mnemonic))
    (hexec : exec i s = branchIf taken d s) : Finishes i s :=
  ⟨_, hexec.trans (branchIf_eq taken d s), .jump 0 s.draws _ (List.mem_append_left [Mnemonic.jmp] hm)⟩

end

theorem finishes_jmpInd (w : Addr) (s : State) : Finishes (.jmpInd w) s := by
  obtain ⟨k, hk⟩ := jumpPointer_state s w
  have hstate : ((s.advance 3).jumpPointer w).2.setPc ((s.advance 3).jumpPointer w).1 = s.afterReads 2 (s.jumpPointer w).1 k := by
    rw [advance_eq, jumpPointer_setPc, hk, busTurns_eq]
    rfl
  have hexec : exec (.jmpInd w) s = .next (s.afterReads 2 (s.jumpPointer w).1 k) := congrArg Host.Outcome.next hstate
  exact ⟨_, hexec, .jump 2 k _ (by simp [Instr.mnemonic])⟩

/-- A pull by an instruction: the turn of its read, SP one higher. -/
theorem pull8_advance (s : State) (n : Nat) :
    ∃ k, (s.advance n).pull8.2 = (s.afterReads 1 (s.pc + BitVec.ofNat 16 n) k).setSp (s.sp + 1) := by
  obtain ⟨k, hk⟩ := pull8_state (s.advance n)
  exact ⟨k, by rw [hk, ← busTurns_zero (s.advance n).busTurn, ← busTurns_succ, advance_eq, busTurns_setPc, busTurns_eq]; rfl⟩

/-- Two pulls by an instruction: the turns of their reads, SP two higher. -/
theorem pull16_advance (s : State) (n : Nat) :
    ∃ k, (s.advance n).pull16.2 = (s.afterReads 2 (s.pc + BitVec.ofNat 16 n) k).setSp (s.sp + 1 + 1) := by
  obtain ⟨k, hk⟩ := pull16_state (s.advance n)
  exact ⟨k, by rw [hk, advance_eq, busTurns_setPc, busTurns_eq]; rfl⟩

theorem finishes_pla (s : State) : Finishes .pla s := by
  obtain ⟨k, hk⟩ := pull8_advance s 1
  have hexec : exec .pla s = .next (setANZ (s.advance 1).pull8.1 (s.advance 1).pull8.2) := rfl
  exact ⟨_, hexec, hk ▸ .pullA k _ rfl⟩

theorem finishes_plp (s : State) : Finishes .plp s := by
  obtain ⟨k, hk⟩ := pull8_advance s 1
  have hexec : exec .plp s = .next ((s.advance 1).pull8.2.openWindowFor (Flags.unpack (s.advance 1).pull8.1)) := rfl
  exact ⟨_, hexec, hk ▸ .pullP k _ rfl⟩

theorem finishes_rts (s : State) : Finishes .rts s := by
  obtain ⟨k, hk⟩ := pull16_advance s 1
  have hexec : exec .rts s = .next ((s.advance 1).pull16.2.setPc ((s.advance 1).pull16.1 + 1)) := rfl
  exact ⟨_, hexec, hk ▸ .returnTo k _ rfl⟩

theorem finishes_rti (s : State) : Finishes .rti s := by
  obtain ⟨k, hk, -⟩ := returnFromHandler_full (s.advance 1)
  have hexec : exec .rti s = .next (s.advance 1).returnFromHandler := rfl
  refine ⟨_, hexec, ?_⟩
  rw [hk, advance_eq, busTurns_setPc, busTurns_eq]
  exact .leave k _ _ rfl

/-- What every instruction does from every state. -/
theorem exec_settled (i : Instr) (s : State) : Settled i s := by
  cases i
  case adcImm | adcZp | adcZpx | adcAbs | adcAbx | adcAby | adcIzx | adcIzy =>
    exact settled_of_addOrSubtract (.inl rfl) rfl rfl
  case sbcImm | sbcZp | sbcZpx | sbcAbs | sbcAbx | sbcAby | sbcIzx | sbcIzy =>
    exact settled_of_addOrSubtract (.inr rfl) rfl rfl
  all_goals refine Finishes.settled ?_ nofun nofun
  case cmpImm | cmpZp | cmpZpx | cmpAbs | cmpAbx | cmpAby | cmpIzx | cmpIzy | cpxImm | cpxZp | cpxAbs | cpyImm | cpyZp |
    cpyAbs =>
    exact finishes_of_compareWith (by simp [Instr.mnemonic]) (fun _ _ _ _ => rfl) rfl rfl
  case bitZp | bitAbs => exact finishes_of_opBit rfl rfl rfl
  case andImm | andZp | andZpx | andAbs | andAbx | andAby | andIzx | andIzy | eorImm | eorZp | eorZpx | eorAbs | eorAbx |
    eorAby | eorIzx | eorIzy | oraImm | oraZp | oraZpx | oraAbs | oraAbx | oraAby | oraIzx | oraIzy =>
    exact finishes_of_combine (by simp [Instr.mnemonic]) rfl rfl
  case ldaImm | ldaZp | ldaZpx | ldaAbs | ldaAbx | ldaAby | ldaIzx | ldaIzy =>
    exact finishes_of_loadInto (fun k v => .intoA _ k v (by simp [Instr.mnemonic])) rfl rfl
  case ldxImm | ldxZp | ldxZpy | ldxAbs | ldxAby =>
    exact finishes_of_loadInto (fun k v => .intoX _ k v (by simp [Instr.mnemonic])) rfl rfl
  case ldyImm | ldyZp | ldyZpx | ldyAbs | ldyAbx =>
    exact finishes_of_loadInto (fun k v => .intoY _ k v (by simp [Instr.mnemonic])) rfl rfl
  case aslAcc | lsrAcc | rolAcc | rorAcc =>
    exact finishes_of_shiftTarget_accumulator (by simp [Instr.mnemonic]) rfl rfl
  case aslZp | aslZpx | aslAbs | aslAbx | lsrZp | lsrZpx | lsrAbs | lsrAbx | rolZp | rolZpx | rolAbs | rolAbx | rorZp | rorZpx |
    rorAbs | rorAbx =>
    exact finishes_of_shiftTarget_mem (by simp [Instr.mnemonic]) rfl rfl
  case incZp | incZpx | incAbs | incAbx =>
    exact finishes_of_stepMemory (f := (· + 1)) (by simp [Instr.mnemonic]) rfl rfl
  case decZp | decZpx | decAbs | decAbx =>
    exact finishes_of_stepMemory (f := (· - 1)) (by simp [Instr.mnemonic]) rfl rfl
  case staZp | staZpx | staAbs | staAbx | staAby | staIzx | staIzy | stxZp | stxZpy | stxAbs | styZp | styZpx | styAbs =>
    exact finishes_of_storeFrom (by simp [Instr.mnemonic]) (fun _ _ _ _ => rfl) rfl rfl
  case bcc | bcs | beq | bmi | bne | bpl | bvc | bvs => exact finishes_of_branchIf (by simp [Instr.mnemonic]) rfl
  case jmpAbs w => exact ⟨_, rfl, .jump 0 s.draws w (by simp [Instr.mnemonic])⟩
  case jmpInd w => exact finishes_jmpInd w s
  case jsr w => exact ⟨_, rfl, .call _ w rfl⟩
  case rts => exact finishes_rts s
  case brk => exact ⟨_, rfl, .enter _ _ rfl⟩
  case rti => exact finishes_rti s
  case nop => exact ⟨_, rfl, .moveOn rfl⟩
  case clc | sec => exact ⟨_, rfl, .writeC _ (by decide)⟩
  case cld | sed => exact ⟨_, rfl, .writeD _ (by decide)⟩
  case cli => exact ⟨_, rfl, .clearI rfl⟩
  case clv => exact ⟨_, rfl, .clearV rfl⟩
  case sei => exact ⟨_, rfl, .raiseI rfl⟩
  case pha | php => exact ⟨_, rfl, .push _ (by decide)⟩
  case pla => exact finishes_pla s
  case plp => exact finishes_plp s
  case txa | tya => exact ⟨_, rfl, .intoA 0 s.draws _ (by decide)⟩
  case tax | tsx | inx | dex => exact ⟨_, rfl, .intoX 0 s.draws _ (by decide)⟩
  case tay | iny | dey => exact ⟨_, rfl, .intoY 0 s.draws _ (by decide)⟩
  case txs => exact ⟨_, rfl, .intoSp _ rfl⟩

/-- Where `exec` answers a next state, it is one of those the instruction's kind has. -/
theorem exec_answers {i : Instr} {s t : State} (h : exec i s = .next t) : Answers i s t := by
  rcases exec_settled i s with ⟨-, hrefused⟩ | ⟨-, u, hu, hanswers⟩
  · rw [hrefused] at h
    cases h
  · rw [hu] at h
    cases h
    exact hanswers

end Sys2Proof.Machine

namespace Sys2Proof.Proofs

open Sys2Proof.Machine Sys2Proof.Claims

/-- Settles O8: only ADC and SBC ask for D and the policy, and every other instruction answers a next state. -/
theorem everyInstructionCompletesOrIsDecimalRefused : Obligations.EveryInstructionCompletesOrIsDecimalRefused := by
  intro i s
  rcases exec_settled i s with ⟨hd, hrefused⟩ | ⟨hd, t, ht, -⟩
  · exact ⟨fun _ => hrefused, fun h => absurd hd h⟩
  · exact ⟨fun h => absurd h hd, fun _ => ⟨t, ht⟩⟩

end Sys2Proof.Proofs
end

section
/-! PROOFS. What every step keeps: a next state is made by turns of the other bus masters, one-byte writes and changes of fields that
are not memory, so what these three keep, every step keeps. -/

namespace Sys2Proof.Machine

/-- The next states a step has: the three entries of a boundary, or what the instruction at PC answers. -/
theorem step_next_cases {s t : State} (h : step s = .next t) :
    (s.input.reset = true ∧ t = (s.applyPins s.input).resetSequence) ∨
    (s.input.take = true ∧ s.boundary = .entered (((s.applyPins s.input).setNmiPending false).intEntry nmiVector) ∧
      t = ((s.applyPins s.input).setNmiPending false).intEntry nmiVector) ∨
    (s.input.take = true ∧ ((s.nmiPending || s.input.nmiEdge) && s.input.take) = false ∧
      t = (s.applyPins s.input).intEntry irqVector) ∨
    (∃ i v, s.boundary = .run (s.applyPins s.input) ∧ ((s.nmiPending || s.input.nmiEdge) && s.input.take) = false ∧
      (s.applyPins s.input).fetchInstr = .instr i v ∧ exec i v = .next t) := by
  rcases boundary_cases s with ⟨hreset, hb⟩ | ⟨_, _, htake, hb⟩ | ⟨_, hnmi, _, _, htake, hb⟩ | ⟨_, hnmi, _, hb⟩
  · rw [step, hb] at h
    cases h
    exact .inl ⟨hreset, rfl⟩
  · rw [step, hb] at h
    cases h
    exact .inr (.inl ⟨htake, hb, rfl⟩)
  · rw [step, hb] at h
    cases h
    exact .inr (.inr (.inl ⟨htake, hnmi, rfl⟩))
  · rw [step, hb] at h
    cases hfetch : (s.applyPins s.input).fetchInstr with
    | instr i v => exact .inr (.inr (.inr ⟨i, v, hb, hnmi, rfl, by simpa [hfetch] using h⟩))
    | undefinedOpcode op => simp [hfetch] at h

/-- Two states with the same memory, parameters, tape, bus masters and device log; registers and free values may differ. -/
def SameOutside (s t : State) : Prop :=
  t.mem = s.mem ∧ t.memMap = s.memMap ∧ t.decimalPolicy = s.decimalPolicy ∧ t.host = s.host ∧ t.irqHeld = s.irqHeld ∧
    t.bus = s.bus ∧ t.deviceWrites = s.deviceWrites

/-- One state is made from another by turns of the other bus masters, one-byte writes and changes of registers. -/
inductive MadeFrom (s : State) : State → Prop
  | refl : MadeFrom s s
  | turn {t : State} (h : MadeFrom s t) : MadeFrom s t.busTurn
  | write {t : State} (h : MadeFrom s t) (a : Addr) (v : Byte) : MadeFrom s (t.memWrite a v)
  | registers {t u : State} (h : MadeFrom s t) (hsame : SameOutside t u) : MadeFrom s u

namespace MadeFrom

variable {s t u : State}

theorem trans (hst : MadeFrom s t) (htu : MadeFrom t u) : MadeFrom s u := by
  induction htu with
  | refl => exact hst
  | turn _ ih => exact ih.turn
  | write _ a v ih => exact ih.write a v
  | registers _ hsame ih => exact ih.registers hsame

section
variable (h : MadeFrom s t)
include h

theorem setA (v : Byte) : MadeFrom s (t.setA v) := h.registers ⟨rfl, rfl, rfl, rfl, rfl, rfl, rfl⟩
theorem setX (v : Byte) : MadeFrom s (t.setX v) := h.registers ⟨rfl, rfl, rfl, rfl, rfl, rfl, rfl⟩
theorem setY (v : Byte) : MadeFrom s (t.setY v) := h.registers ⟨rfl, rfl, rfl, rfl, rfl, rfl, rfl⟩
theorem setSp (v : Byte) : MadeFrom s (t.setSp v) := h.registers ⟨rfl, rfl, rfl, rfl, rfl, rfl, rfl⟩
theorem setPc (w : Addr) : MadeFrom s (t.setPc w) := h.registers ⟨rfl, rfl, rfl, rfl, rfl, rfl, rfl⟩
theorem setP (p : Flags) : MadeFrom s (t.setP p) := h.registers ⟨rfl, rfl, rfl, rfl, rfl, rfl, rfl⟩
theorem setNmiPending (b : Bool) : MadeFrom s (t.setNmiPending b) := h.registers ⟨rfl, rfl, rfl, rfl, rfl, rfl, rfl⟩
theorem setDraws (k : Nat) : MadeFrom s (t.setDraws k) := h.registers ⟨rfl, rfl, rfl, rfl, rfl, rfl, rfl⟩

end

theorem busTurns (h : MadeFrom s t) (n : Nat) : MadeFrom s (t.busTurns n) := by
  induction n generalizing t with
  | zero => exact h
  | succ n ih => exact ih h.turn

theorem afterReads (h : MadeFrom s t) (n : Nat) (w : Addr) (k : Nat) : MadeFrom s (t.afterReads n w k) :=
  (h.busTurns n).registers (by simp [SameOutside, State.afterReads])

theorem push8 (h : MadeFrom s t) (v : Byte) : MadeFrom s (t.push8 v) := by
  rw [push8_eq]
  exact (h.write (stackAddr t.sp) v).setSp (t.sp - 1)

theorem push16 (h : MadeFrom s t) (w : Addr) : MadeFrom s (t.push16 w) := (h.push8 (highByte w)).push8 (lowByte w)

theorem read16 (h : MadeFrom s t) (a : Addr) : MadeFrom s (t.read16 a).2 := by
  obtain ⟨k, hk⟩ := read16_state t a
  rw [hk]
  exact (h.busTurns 2).setDraws k

theorem enterHandler (h : MadeFrom s t) (ret : Addr) (b : Bool) (vector : Addr) : MadeFrom s (t.enterHandler ret b vector) := by
  have hpushed := (h.push16 ret).push8 ((t.push16 ret).p.pack b)
  exact ((hpushed.setP _).read16 vector).setPc _

theorem resetSequence (h : MadeFrom s t) : MadeFrom s t.resetSequence := by
  have hregisters := h.registers (u := t.resetRegisters) ⟨rfl, rfl, rfl, rfl, rfl, rfl, rfl⟩
  rw [resetSequence_eq]
  exact (hregisters.read16 resetVector).setPc _

theorem fetchInstr {i : Instr} (h : MadeFrom s t) (hfetch : t.fetchInstr = .instr i u) : MadeFrom s u := by
  obtain ⟨n, k, rfl⟩ := fetchInstr_state hfetch
  exact (h.busTurns n).setDraws k

theorem openWindowFor (h : MadeFrom s t) (p : Flags) : MadeFrom s (t.openWindowFor p) := h.registers (by simp [SameOutside])

/-- What an instruction does: its reads and writes, and registers. -/
theorem of_answers {i : Instr} (h : Answers i s t) : MadeFrom s t := by
  have moved : ∀ w, MadeFrom s (s.setPc w) := refl.setPc
  have read : ∀ n w k, MadeFrom s (s.afterReads n w k) := refl.afterReads
  cases h
  case alu => exact ((read _ _ _).setA _).setP _
  case compare | bitTest => exact (read _ _ _).setP _
  case intoA => exact ((read _ _ _).setA _).setP _
  case intoX => exact ((read _ _ _).setX _).setP _
  case intoY => exact ((read _ _ _).setY _).setP _
  case shiftA => exact ((moved _).setA _).setP _
  case shiftMem | stepMem => exact ((read _ _ _).write _ _).setP _
  case store => exact (read _ _ _).write _ _
  case jump => exact read _ _ _
  case moveOn => exact moved _
  case writeC | writeD | clearI | clearV => exact (moved _).setP _
  case raiseI => exact (moved _).openWindowFor _
  case intoSp => exact (moved _).setSp _
  case push => exact (moved _).push8 _
  case pullA => exact (((read _ _ _).setSp _).setA _).setP _
  case pullP => exact ((read _ _ _).setSp _).openWindowFor _
  case call => exact ((moved _).push16 _).setPc _
  case returnTo => exact (read _ _ _).setSp _
  case enter => exact (moved _).enterHandler _ _ _
  case leave => exact ((read _ _ _).setSp _).setP _

/-- What every step does: the pins, which move the tape, and then turns, writes and registers. -/
theorem of_step (h : step s = .next t) : MadeFrom (s.applyPins s.input) t := by
  rcases step_next_cases h with ⟨_, rfl⟩ | ⟨_, _, rfl⟩ | ⟨_, _, rfl⟩ | ⟨i, v, _, _, hfetch, hexec⟩
  · exact refl.resetSequence
  · exact (refl.setNmiPending false).enterHandler _ _ _
  · exact refl.enterHandler _ _ _
  · exact (refl.fetchInstr hfetch).trans (of_answers (exec_answers hexec))

/-- The canonical form of memory is kept. -/
theorem wf (h : MadeFrom s t) (hs : s.wf = true) : t.wf = true := by
  induction h with
  | refl => exact hs
  | turn _ ih => exact busTurn_wf ih
  | write _ a v ih => exact memWrite_wf a v ih
  | registers _ hsame ih =>
    rw [State.wf, hsame.1]
    exact ih

theorem memMap (h : MadeFrom s t) : t.memMap = s.memMap := by
  induction h with
  | refl => rfl
  | turn _ ih => exact ih
  | write _ a v ih => exact (memWrite_memMap _ a v).trans ih
  | registers _ hsame ih => exact hsame.2.1.trans ih

/-- A byte outside RAM is kept: the other bus masters and the CPU write RAM only (20_memory.md R52, R58). -/
theorem peek_of_not_ram (h : MadeFrom s t) {a : Addr} (ha : s.kindAt a ≠ .ram) : t.peek a = s.peek a := by
  have hkind : ∀ {u}, MadeFrom s u → u.kindAt a ≠ .ram := fun hu => by rwa [State.kindAt, hu.memMap]
  have hturn : ∀ {u}, MadeFrom s u → u.busTurn.peek a = u.peek a := fun hu => by
    rw [busTurn_peek, byteAfter_of_not_ram (hkind hu)]
  induction h with
  | refl => rfl
  | turn hu ih => exact (hturn hu).trans ih
  | @write u hu b v ih =>
    have hnot : ¬ (a = b ∧ u.kindAt b = .ram) := by
      rintro ⟨rfl, hram⟩
      exact hkind hu hram
    rw [memWrite_peek, if_neg hnot, hturn hu, ih]
  | registers _ hsame ih =>
    rw [State.peek, hsame.1]
    exact ih

/-- The parameters and the tape are kept, the bus masters' list is used up from its front, the device log grows at its end. -/
theorem parameters (h : MadeFrom s t) :
    t.memMap = s.memMap ∧ t.decimalPolicy = s.decimalPolicy ∧ t.host = s.host ∧ t.irqHeld = s.irqHeld ∧
      t.bus <:+ s.bus ∧ s.deviceWrites <+: t.deviceWrites := by
  induction h with
  | refl => exact ⟨rfl, rfl, rfl, rfl, List.suffix_rfl, List.prefix_rfl⟩
  | turn _ ih =>
    obtain ⟨hmap, hpolicy, hhost, hirq, hbus, hlog⟩ := ih
    exact ⟨hmap, hpolicy, hhost, hirq, (List.tail_suffix _).trans hbus, hlog⟩
  | write _ a v ih =>
    obtain ⟨hmap, hpolicy, hhost, hirq, hbus, hlog⟩ := ih
    refine ⟨by simpa, by simpa, by simpa, by simpa, ?_, ?_⟩
    · rw [memWrite_bus]
      exact (List.tail_suffix _).trans hbus
    · rw [memWrite_deviceWrites]
      exact hlog.trans (List.prefix_append _ _)
  | registers _ hsame ih =>
    obtain ⟨-, hmap', hpolicy', hhost', hirq', hbus', hlog'⟩ := hsame
    rw [hmap', hpolicy', hhost', hirq', hbus', hlog']
    exact ih

end MadeFrom

end Sys2Proof.Machine

namespace Sys2Proof.Proofs

open Sys2Proof.Machine Sys2Proof.Claims

/-- Settles O17: the pins leave memory alone, and turns and writes keep the canonical form. -/
theorem stepKeepsMemoryCanonical : Obligations.StepKeepsMemoryCanonical :=
  fun _ _ hwf hstep => (MadeFrom.of_step hstep).wf (applyPins_wf _ hwf)

/-- Settles O18: the pins leave memory and the map alone, and turns and writes reach RAM only. -/
theorem stepWritesMemoryOnlyInRam : Obligations.StepWritesMemoryOnlyInRam := by
  intro s t a hstep ha
  rw [(MadeFrom.of_step hstep).peek_of_not_ram (by rwa [applyPins_kindAt]), applyPins_peek]

/-- Settles O19: the pins move the tape on by one, and nothing after them touches it. -/
theorem stepKeepsTheParameters : Obligations.StepKeepsTheParameters := by
  intro s t hstep
  simpa using (MadeFrom.of_step hstep).parameters

end Sys2Proof.Proofs
end

section
/-! PROOFS. Who writes what: each flag and each register stays but in the cases of `Answers` that write it, and those name their
mnemonics. -/

namespace Sys2Proof.Machine

@[simp] theorem afterReads_a (s : State) (n : Nat) (w : Addr) (k : Nat) : (s.afterReads n w k).a = s.a := rfl
@[simp] theorem afterReads_x (s : State) (n : Nat) (w : Addr) (k : Nat) : (s.afterReads n w k).x = s.x := rfl
@[simp] theorem afterReads_y (s : State) (n : Nat) (w : Addr) (k : Nat) : (s.afterReads n w k).y = s.y := rfl
@[simp] theorem afterReads_sp (s : State) (n : Nat) (w : Addr) (k : Nat) : (s.afterReads n w k).sp = s.sp := rfl
@[simp] theorem afterReads_pc (s : State) (n : Nat) (w : Addr) (k : Nat) : (s.afterReads n w k).pc = w := rfl
@[simp] theorem afterReads_p (s : State) (n : Nat) (w : Addr) (k : Nat) : (s.afterReads n w k).p = s.p := rfl
@[simp] theorem afterReads_nmiPending (s : State) (n : Nat) (w : Addr) (k : Nat) :
    (s.afterReads n w k).nmiPending = s.nmiPending := rfl
@[simp] theorem afterReads_iWindow (s : State) (n : Nat) (w : Addr) (k : Nat) :
    (s.afterReads n w k).iWindow = s.iWindow := rfl

namespace Answers

variable {i : Instr} {s t : State}

/-! ### The hidden bits -/

theorem nmiPending (h : Answers i s t) : t.nmiPending = s.nmiPending := by cases h <;> simp

/-- Only SEI and PLP open the window, and only where they raise I (60_exceptions.md R215). -/
theorem iWindow (h : Answers i s t) :
    t.iWindow = s.iWindow ∨ ((i = .sei ∨ i = .plp) ∧ t.iWindow = ((!s.p.i && t.p.i) || s.iWindow)) := by
  cases h
  case raiseI hi => exact .inr ⟨.inl hi, by simp⟩
  case pullP hi => exact .inr ⟨.inr hi, by simp⟩
  all_goals exact .inl (by simp)

/-! ### The flags -/

theorem mnemonic_of_c_ne (hanswers : Answers i s t) (hne : t.p.c ≠ s.p.c) :
    i.mnemonic ∈ ([.adc, .sbc, .cmp, .cpx, .cpy, .asl, .rol, .lsr, .ror, .clc, .sec, .plp, .rti] : List Mnemonic) := by
  cases hanswers
  case alu hm | compare hm | shiftA hm | shiftMem hm | writeC hm => exact List.subset_def.1 (by decide) hm
  case pullP hm => subst hm; decide
  case leave hm => rw [hm]; decide
  all_goals exact absurd (by simp [Flags.setNZ, Flags.bitTest]) hne

theorem mnemonic_of_z_or_n_ne (hanswers : Answers i s t) (hne : t.p.z ≠ s.p.z ∨ t.p.n ≠ s.p.n) :
    i.mnemonic ∈ ([.adc, .sbc, .and, .ora, .eor, .bit, .cmp, .cpx, .cpy, .asl, .lsr, .rol, .ror, .inc, .dec, .inx, .iny,
      .dex, .dey, .lda, .ldx, .ldy, .pla, .tax, .tay, .tsx, .txa, .tya, .plp, .rti] : List Mnemonic) := by
  cases hanswers
  case alu hm | compare hm | intoA hm | intoX hm | intoY hm | shiftA hm | shiftMem hm | stepMem hm =>
    exact List.subset_def.1 (by decide) hm
  case bitTest hm | pullA hm | leave hm => rw [hm]; decide
  case pullP hm => subst hm; decide
  all_goals exact absurd hne (by simp)

theorem mnemonic_of_i_ne (hanswers : Answers i s t) (hne : t.p.i ≠ s.p.i) :
    i.mnemonic ∈ ([.cli, .sei, .plp, .rti, .brk] : List Mnemonic) := by
  cases hanswers
  case clearI hm | leave hm | enter hm => rw [hm]; decide
  case raiseI hm | pullP hm => subst hm; decide
  all_goals exact absurd (by simp [Flags.setAlu, Flags.compare, Flags.setNZ, Flags.bitTest, Flags.setShift]) hne

theorem mnemonic_of_d_ne (hanswers : Answers i s t) (hne : t.p.d ≠ s.p.d) :
    i.mnemonic ∈ ([.cld, .sed, .plp, .rti] : List Mnemonic) := by
  cases hanswers
  case writeD hm => exact List.subset_def.1 (by decide) hm
  case leave hm => rw [hm]; decide
  case pullP hm => subst hm; decide
  all_goals exact absurd (by simp [Flags.setAlu, Flags.compare, Flags.setNZ, Flags.bitTest, Flags.setShift]) hne

theorem mnemonic_of_v_ne (hanswers : Answers i s t) (hne : t.p.v ≠ s.p.v) :
    i.mnemonic ∈ ([.adc, .sbc, .bit, .clv, .plp, .rti] : List Mnemonic) := by
  cases hanswers
  case alu hm => exact List.subset_def.1 (by decide) hm
  case bitTest hm | clearV hm | leave hm => rw [hm]; decide
  case pullP hm => subst hm; decide
  all_goals exact absurd (by simp [Flags.compare, Flags.setNZ, Flags.setShift]) hne

/-! ### The registers and memory -/

theorem mnemonic_of_a_ne (hanswers : Answers i s t) (hne : t.a ≠ s.a) :
    i.mnemonic ∈ ([.adc, .sbc, .and, .ora, .eor, .asl, .lsr, .rol, .ror, .lda, .pla, .txa, .tya] : List Mnemonic) := by
  cases hanswers
  case alu hm | intoA hm | shiftA hm => exact List.subset_def.1 (by decide) hm
  case pullA hm => rw [hm]; decide
  all_goals exact absurd (by simp) hne

theorem mnemonic_of_x_ne (hanswers : Answers i s t) (hne : t.x ≠ s.x) :
    i.mnemonic ∈ ([.ldx, .tax, .tsx, .inx, .dex] : List Mnemonic) := by
  cases hanswers
  case intoX hm => exact hm
  all_goals exact absurd (by simp) hne

theorem mnemonic_of_y_ne (hanswers : Answers i s t) (hne : t.y ≠ s.y) :
    i.mnemonic ∈ ([.ldy, .tay, .iny, .dey] : List Mnemonic) := by
  cases hanswers
  case intoY hm => exact hm
  all_goals exact absurd (by simp) hne

theorem mnemonic_of_sp_ne (hanswers : Answers i s t) (hne : t.sp ≠ s.sp) :
    i.mnemonic ∈ ([.txs, .pha, .php, .pla, .plp, .jsr, .rts, .brk, .rti] : List Mnemonic) := by
  cases hanswers
  case push hm => exact List.subset_def.1 (by decide) hm
  case intoSp hm | pullA hm | call hm | returnTo hm | enter hm | leave hm => rw [hm]; decide
  case pullP hm => subst hm; decide
  all_goals exact absurd (by simp) hne

/-- The instructions that write memory; the others leave it, and the device log, as the turns before their reads do. -/
theorem mnemonic_of_mem_ne (hanswers : Answers i s t)
    (hne : (∀ n, t.mem ≠ (s.busTurns n).mem) ∨ t.deviceWrites ≠ s.deviceWrites) :
    i.mnemonic ∈ ([.sta, .stx, .sty, .asl, .lsr, .rol, .ror, .inc, .dec, .pha, .php, .jsr, .brk] : List Mnemonic) := by
  have unchanged : ∀ n, t.mem = (s.busTurns n).mem → ¬ t.deviceWrites ≠ s.deviceWrites →
      ¬ ((∀ n, t.mem ≠ (s.busTurns n).mem) ∨ t.deviceWrites ≠ s.deviceWrites) :=
    fun n hmem hlog hne => hne.elim (fun h => h n hmem) hlog
  cases hanswers
  case shiftMem hm | stepMem hm | store hm | push hm => exact List.subset_def.1 (by decide) hm
  case call hm | enter hm => rw [hm]; decide
  case shiftA | moveOn | writeC | writeD | clearI | clearV | intoSp => exact absurd hne (unchanged 0 rfl (· rfl))
  case raiseI => exact absurd hne (unchanged 0 (by simp) (by simp))
  case pullP => exact absurd hne (unchanged 1 (by simp [State.afterReads]) (by simp [State.afterReads]))
  all_goals exact absurd hne (unchanged _ rfl (· rfl))

/-- The instructions that do not go on at the next one. -/
theorem mnemonic_of_pc_ne (hanswers : Answers i s t) (hne : t.pc ≠ s.pc + BitVec.ofNat 16 i.length) :
    i.mnemonic ∈ ([.bcc, .bcs, .beq, .bmi, .bne, .bpl, .bvc, .bvs, .jmp, .jsr, .rts, .rti, .brk] : List Mnemonic) := by
  cases hanswers
  case jump hm => exact List.subset_def.1 (by decide) hm
  case call hm | returnTo hm | leave hm | enter hm => rw [hm]; decide
  all_goals exact absurd (by simp [nextPc]) hne

end Answers

end Sys2Proof.Machine

namespace Sys2Proof.Proofs

open Sys2Proof.Machine Sys2Proof.Claims

/-- Settles O54: flag by flag, the kinds of next state that change it are those of its listed writers. -/
theorem flagsHaveTheirListedWriters : Obligations.FlagsHaveTheirListedWriters := by
  intro i s t hexec
  have h := exec_answers hexec
  exact ⟨h.mnemonic_of_c_ne, h.mnemonic_of_z_or_n_ne, h.mnemonic_of_i_ne, h.mnemonic_of_d_ne, h.mnemonic_of_v_ne⟩

/-- Settles O55: register by register, and for memory, the kinds of next state that change it are those of its listed writers. -/
theorem registersHaveTheirListedWriters : Obligations.RegistersHaveTheirListedWriters := by
  intro i s t hexec
  have h := exec_answers hexec
  exact ⟨h.mnemonic_of_a_ne, h.mnemonic_of_x_ne, h.mnemonic_of_y_ne, h.mnemonic_of_sp_ne, h.mnemonic_of_mem_ne,
    h.mnemonic_of_pc_ne, h.nmiPending⟩

end Sys2Proof.Proofs
end

section
/-! PROOFS. The step at a boundary: the pins as record updates, the order of priority, the fetch of an instruction that lies in memory,
and the window that SEI and PLP open. -/

namespace Sys2Proof.Machine

/-! ### The pins and the order of priority -/

theorem input_of_cons {s : State} {h : HostInput} {rest : List HostInput} (hs : s.host = h :: rest) : s.input = h := by
  simp [State.input, hs]

theorem input_of_nil {s : State} (hs : s.host = []) : s.input = afterTape s.irqHeld := by simp [State.input, hs]

theorem applyPins_of_cons {s : State} {h : HostInput} {rest : List HostInput} (hs : s.host = h :: rest) :
    s.applyPins h =
      { s with p := Claims.withSo s.p h, nmiPending := s.nmiPending || h.nmiEdge, iWindow := false, host := rest } := by
  have hrest : rest = s.host.tail := by rw [hs, List.tail_cons]
  subst hrest
  rfl

/-- After the tape's end the pins clear the window and nothing else. -/
theorem applyPins_of_nil {s : State} (hs : s.host = []) (irq : Bool) : s.applyPins (afterTape irq) = { s with iWindow := false } := by
  ext1 <;> simp [hs, afterTape]

theorem boundary_of_nmi {s : State} (hreset : s.input.reset = false) (htake : s.input.take = true)
    (hnmi : (s.nmiPending || s.input.nmiEdge) = true) :
    s.boundary = .entered (((s.applyPins s.input).setNmiPending false).intEntry nmiVector) := by
  simp [State.boundary, hreset, htake, hnmi]

theorem boundary_of_irq {s : State} (hreset : s.input.reset = false) (htake : s.input.take = true)
    (hnmi : (s.nmiPending || s.input.nmiEdge) = false) (hirq : s.input.irqLevel = true) (hi : (!s.p.i || s.iWindow) = true) :
    s.boundary = .entered ((s.applyPins s.input).intEntry irqVector) := by
  simp [State.boundary, hreset, htake, hnmi, hirq, hi]

theorem boundary_of_untaken {s : State} (hreset : s.input.reset = false)
    (hnmi : ((s.nmiPending || s.input.nmiEdge) && s.input.take) = false)
    (hirq : (s.input.irqLevel && (!s.p.i || s.iWindow) && s.input.take) = false) :
    s.boundary = .run (s.applyPins s.input) := by
  simp only [State.boundary, hreset, applyPins_nmiPending, applyPins_p, hnmi, hirq, Bool.false_eq_true, if_false]

theorem step_of_entered {s t : State} (h : s.boundary = .entered t) : step s = .next t := by rw [step, h]

theorem step_of_run {s t u : State} {i : Instr} (h : s.boundary = .run t) (hfetch : t.fetchInstr = .instr i u) :
    step s = exec i u := by rw [step, h]; simp only [hfetch]

/-! ### Entering a handler -/

/-- The status byte is pushed as the statements name it (10_state.md R15, R20). -/
theorem pack_eq_statusByte (p : Flags) (b : Bool) : p.pack b = Claims.statusByte p b := by
  obtain ⟨n, v, d, i, z, c⟩ := p
  revert n v d i z c b
  decide

theorem sub_one_sub_one (v : Byte) : v - 1 - 1 = v - 2 := by rw [sub_sub]; rfl

/-- The sequence BRK, IRQ and NMI share is the entry the statements name. -/
theorem enterHandler_enters (s : State) (ret : Addr) (b : Bool) (vector : Addr) :
    Claims.Enters s ret s.p b vector s (s.enterHandler ret b vector) := by
  have hpushes : Claims.pushes s ret s.p b = [some (stackAddr s.sp, highByte ret), some (stackAddr (s.sp - 1), lowByte ret),
      some (stackAddr (s.sp - 1 - 1), s.p.pack b)] := by
    rw [Claims.pushes, sub_one_sub_one, pack_eq_statusByte]
  obtain ⟨hafter, hpc⟩ := enterHandler_full s ret b vector
  rw [← hpushes] at hafter hpc
  refine ⟨hafter, ?_⟩
  have hsp : s.sp - 1 - 1 - 1 = s.sp - 3 := by rw [sub_one_sub_one, sub_sub]; rfl
  rw [Claims.RegistersOf, ← hpc, BitVec.ofNat_toNat, BitVec.setWidth_eq]
  ext1
  case sp => exact (enterHandler_sp s ret b vector).trans hsp
  all_goals simp

/-! ### The fetch -/

/-- The encoding is as long as the instruction (30_encoding.md R70). -/
theorem encode_length (i : Instr) : (encode i).length = i.length := by cases i <;> rfl

theorem length_eq_of_operand {i : Instr} {field : OperandField} (h : i.operand = field) :
    i.length = (encodeOperand field).length + 1 := by
  rw [← encode_length, encode, h, List.length_cons]

/-- An instruction whose bytes lie in memory, each as it is at its own read, is fetched whole (30_encoding.md R72). -/
theorem fetchInstr_of_readable {t : State} {i : Instr} {rest : List Byte}
    (hdecode : decode [(t.busTurns 1).peek t.pc, (t.busTurns 2).peek (t.pc + 1), (t.busTurns 3).peek (t.pc + 2)] = .instr i rest)
    (hread : ∀ j, j < i.length → t.readable (t.pc + BitVec.ofNat 16 j) = true) :
    t.fetchInstr = .instr i (t.busTurns i.length) := by
  obtain ⟨op, shape, field, hop, hbuilds, hbytes⟩ := decode_eq_instr hdecode
  rw [List.cons.injEq] at hbytes
  obtain ⟨hop', hrest⟩ := hbytes
  have hlength := length_eq_of_operand (decodeOpcode_fits hop field i hbuilds).2
  have hread0 : t.memRead t.pc = (op, t.busTurns 1) := by
    rw [memRead_of_readable (by simpa using hread 0 (by omega)), ← hop']
    rfl
  have hread1 : 1 < i.length → (t.busTurns 1).memRead (t.pc + 1) = ((t.busTurns 2).peek (t.pc + 1), t.busTurns 2) := fun h => by
    rw [memRead_of_readable (by simpa using hread 1 h)]
    rfl
  have hread2 : 2 < i.length → (t.busTurns 2).memRead (t.pc + 2) = ((t.busTurns 3).peek (t.pc + 2), t.busTurns 3) := fun h => by
    rw [memRead_of_readable (by simpa using hread 2 h)]
    rfl
  cases hbuilds with
  | implied i =>
    have hlen : i.length = 1 := hlength
    simp only [State.fetchInstr, hread0, hop, hlen]
  | byte f b =>
    have hb : (t.busTurns 2).peek (t.pc + 1) = b := (List.cons.inj hrest).1
    have hlen : (f b).length = 2 := hlength
    simp only [State.fetchInstr, hread0, hop, hread1 (by omega), hb, hlen]
  | word f w =>
    have hlow : (t.busTurns 2).peek (t.pc + 1) = lowByte w := (List.cons.inj hrest).1
    have hhigh : (t.busTurns 3).peek (t.pc + 2) = highByte w := (List.cons.inj (List.cons.inj hrest).2).1
    have hlen : (f w).length = 3 := hlength
    simp only [State.fetchInstr, hread0, hop, hread1 (by omega), hread2 (by omega), hlow, hhigh, hlen, joinBytes_highByte_lowByte]

end Sys2Proof.Machine

namespace Sys2Proof.Proofs

open Sys2Proof.Machine Sys2Proof.Claims

/-- Settles O5: instruction bytes that lie in memory are fetched whole, and whatever has been fetched is run. -/
theorem stepRunsDecodedInstruction : Obligations.StepRunsDecodedInstruction :=
  ⟨fun _ _ _ _ hb hdecode hread => step_of_run hb (fetchInstr_of_readable hdecode hread),
    fun _ _ _ _ hb hfetch => step_of_run hb hfetch⟩

/-- Settles O6: the opcode map has no row for the byte, so the fetch ends with it. -/
theorem undefinedOpcodeIsRefused : Obligations.UndefinedOpcodeIsRefused := by
  intro s t hb hread hop
  have hnone := (unassignedOpcodesAreTheListed.1 _).2 hop
  have hmem : t.memRead t.pc = ((t.busTurns 1).peek t.pc, t.busTurns 1) := memRead_of_readable hread
  have hfetch : t.fetchInstr = .undefinedOpcode ((t.busTurns 1).peek t.pc) := by
    simp only [State.fetchInstr, hmem, hnone]
  rw [step, hb]
  simp only [hfetch]

/-- Settles O7: nothing is taken, and what the pins change is what the statement names, on the tape and after its end. -/
theorem untakenBoundaryRunsTheInstruction : Obligations.UntakenBoundaryRunsTheInstruction := by
  refine ⟨fun s h rest hs hreset hnmi hirq => ?tape, fun s hs hnmi hirq => ?ended⟩
  case tape =>
    have hin := input_of_cons hs
    rw [boundary_of_untaken (by rwa [hin]) (by rwa [hin]) (by rwa [hin]), hin, applyPins_of_cons hs]
  case ended =>
    have hin := input_of_nil hs
    rw [boundary_of_untaken (by rw [hin]; rfl) (by rw [hin, hnmi]; rfl) (by rw [hin, afterTape, hirq]; rfl), hin,
      applyPins_of_nil hs]

/-- Settles O9: reset is one state, whose memory lists nothing. -/
theorem resetStateHolds : Obligations.ResetStateHolds := by
  refine ⟨rfl, rfl, rfl, rfl, ?vector, rfl⟩
  case vector => decide

/-- Settles O11: an NMI comes before an IRQ, and the entry is the shared sequence from the state the pins leave. -/
theorem nmiEntryAtABoundary : Obligations.NmiEntryAtABoundary := by
  intro s h rest hs hreset htake hnmi
  have hin := input_of_cons hs
  have hb := boundary_of_nmi (s := s) (by rwa [hin]) (by rwa [hin]) (by rwa [hin])
  rw [hin, applyPins_of_cons hs] at hb
  exact ⟨_, step_of_entered hb, enterHandler_enters _ s.pc false nmiVector⟩

/-- Settles O12: I is 0 or the window is open, and the entry is the shared sequence from the state the pins leave. -/
theorem irqEntryAtABoundary : Obligations.IrqEntryAtABoundary := by
  intro s h rest hs hreset htake hnmi hirq hi
  have hin := input_of_cons hs
  have hb := boundary_of_irq (s := s) (by rwa [hin]) (by rwa [hin]) (by rwa [hin]) (by rwa [hin]) hi
  rw [hin, applyPins_of_cons hs] at hb
  have henters := enterHandler_enters ({ s with
    p := withSo s.p h, nmiPending := s.nmiPending || h.nmiEdge, iWindow := false, host := rest } : State) s.pc false irqVector
  rw [hnmi] at hb henters
  exact ⟨_, step_of_entered hb, henters⟩

/-- Settles O13: the pins leave the same state, and nothing else of a boundary looks at SO. -/
theorem soEdgeOnlySetsOverflow : Obligations.SoEdgeOnlySetsOverflow := by
  intro s h rest hs hso
  have hpins : s.applyPins h =
      State.applyPins { s with p := { s.p with v := true }, host := { h with soEdge := false } :: rest } { h with soEdge := false } := by
    rw [applyPins_of_cons hs, withSo, hso, Bool.or_true]
    rfl
  have hboundary : s.boundary =
      State.boundary { s with p := { s.p with v := true }, host := { h with soEdge := false } :: rest } := by
    rw [State.boundary, input_of_cons hs, hpins]
    rfl
  rw [step, hboundary, step]

/-- Settles O45: BRK is the shared sequence with the address two past its opcode and bit 4 set; PC, which it moves first, is no part of
what it pushes or reads. -/
theorem brkEntersTheIrqHandler : Obligations.BrkEntersTheIrqHandler := by
  refine ⟨rfl, fun s => ⟨_, rfl, ?_⟩⟩
  exact enterHandler_enters (s.advance 1) (s.pc + 2) true irqVector

end Sys2Proof.Proofs
end

section
/-! PROOFS. The hidden bits from step to step, and the fairness of a run: what is pending stays pending until the tape takes it, and the
tape moves on by one at every step. -/

namespace Sys2Proof.Machine

/-! ### Fetch and pins -/

theorem fetchInstr_iWindow {s t : State} {i : Instr} (h : s.fetchInstr = .instr i t) : t.iWindow = s.iWindow := by
  obtain ⟨n, k, rfl⟩ := fetchInstr_state h
  simp

theorem fetchInstr_p {s t : State} {i : Instr} (h : s.fetchInstr = .instr i t) : t.p = s.p := by
  obtain ⟨n, k, rfl⟩ := fetchInstr_state h
  simp

theorem fetchInstr_nmiPending {s t : State} {i : Instr} (h : s.fetchInstr = .instr i t) : t.nmiPending = s.nmiPending := by
  obtain ⟨n, k, rfl⟩ := fetchInstr_state h
  simp

/-- A step that takes no entry keeps a pending NMI pending (60_exceptions.md R216). -/
theorem nmiPending_of_exec {s t v : State} {i : Instr} (hfetch : (s.applyPins s.input).fetchInstr = .instr i v)
    (hexec : exec i v = .next t) : t.nmiPending = (s.nmiPending || s.input.nmiEdge) := by
  rw [(exec_answers hexec).nmiPending, fetchInstr_nmiPending hfetch, applyPins_nmiPending]

/-- The tape moves on by one, and the held level stays. -/
theorem step_host {s t : State} (h : step s = .next t) : t.host = s.host.tail ∧ t.irqHeld = s.irqHeld := by
  obtain ⟨-, -, hhost, hirq, -, -⟩ := Proofs.stepKeepsTheParameters s t h
  exact ⟨hhost, hirq⟩

/-! ### Runs -/

theorem run_succ_of_next {s t : State} (h : step s = .next t) (n : Nat) : core.run (n + 1) s = core.run n t := by
  have hcore : core.step s = .next t := h
  simp only [Host.Core.run, hcore]

theorem run_succ_of_refused {s : State} {r : Refusal} (h : step s = .refused r) (n : Nat) : core.run (n + 1) s = .refused r := by
  have hcore : core.step s = .refused r := h
  simp only [Host.Core.run, hcore]

/-- A run that answers a state has moved the tape on by one at every step, and keeps the held level. -/
theorem run_host {n : Nat} {s u : State} (h : core.run n s = .next u) : u.host = s.host.drop n ∧ u.irqHeld = s.irqHeld := by
  induction n generalizing s with
  | zero =>
    cases h
    exact ⟨rfl, rfl⟩
  | succ n ih =>
    cases hstep : step s with
    | next t =>
      rw [run_succ_of_next hstep] at h
      obtain ⟨hhost, hirq⟩ := step_host hstep
      obtain ⟨hhost', hirq'⟩ := ih h
      exact ⟨by rw [hhost', hhost, List.drop_tail], hirq'.trans hirq⟩
    | fault r => cases r
    | refused r =>
      rw [run_succ_of_refused hstep] at h
      cases h

end Sys2Proof.Machine

namespace Sys2Proof.Proofs

open Sys2Proof.Machine Sys2Proof.Claims

/-- Settles O14: entries and the pins leave the window clear, and of the instructions only SEI and PLP open it, where they raise I. -/
theorem windowOnlyAfterSeiOrPlp : Obligations.WindowOnlyAfterSeiOrPlp := by
  intro s t hstep hwindow
  rcases step_next_cases hstep with ⟨_, rfl⟩ | ⟨_, _, rfl⟩ | ⟨_, _, rfl⟩ | ⟨i, v, hb, _, hfetch, hexec⟩
  case inr.inr.inr =>
    have hv : v.iWindow = false := by rw [fetchInstr_iWindow hfetch, applyPins_iWindow]
    have hp : v.p.i = s.p.i := by rw [fetchInstr_p hfetch, applyPins_p]
    rcases (exec_answers hexec).iWindow with hkept | ⟨hi, hopened⟩
    · rw [hwindow, hv] at hkept
      cases hkept
    · have hraised : (!s.p.i && t.p.i) = true := by rw [← hwindow, hopened, hv, hp, Bool.or_false]
      simp only [Bool.and_eq_true, Bool.not_eq_true'] at hraised
      exact ⟨_, i, v, hb, hfetch, hi, hraised.1, hraised.2⟩
  all_goals simp [State.intEntry] at hwindow

/-- Settles O15: an entry that is not the NMI's is a reset, or an IRQ's where no NMI is taken; an instruction keeps the NMI pending. -/
theorem pendingNmiIsNotLost : Obligations.PendingNmiIsNotLost := by
  intro s t hnmi hstep
  rcases step_next_cases hstep with ⟨hreset, _⟩ | ⟨htake, hb, _⟩ | ⟨htake, hnot, _⟩ | ⟨i, v, _, _, hfetch, hexec⟩
  · exact .inr (.inl hreset)
  · exact .inr (.inr ⟨htake, hb⟩)
  · rw [hnmi, htake] at hnot
    cases hnot
  · exact .inl ((nmiPending_of_exec hfetch hexec).trans hnmi)

/-- Settles O16: by induction on the tape; a boundary that does not take the NMI takes a reset or runs an instruction, which keeps it
pending, and at the tape's end it is taken. -/
theorem pendingNmiIsTakenOrResetOccurs : Obligations.PendingNmiIsTakenOrResetOccurs := by
  intro s hnmi
  induction hhost : s.host generalizing s with
  | nil =>
    have hin := input_of_nil hhost
    have hb := boundary_of_nmi (s := s) (by rw [hin]; rfl) (by rw [hin]; rfl) (by rw [hnmi]; rfl)
    exact ⟨0, Nat.zero_le _, .inl ⟨s, _, rfl, hnmi, hb, .inr rfl⟩⟩
  | cons h rest ih =>
    rcases boundary_cases s with ⟨hreset, hb⟩ | ⟨_, _, _, hb⟩ | ⟨_, hnot, _, _, htake, _⟩ | ⟨hnoreset, _, _, hb⟩
    · exact ⟨0, Nat.zero_le _, .inl ⟨s, _, rfl, hnmi, hb, .inl hreset⟩⟩
    · exact ⟨0, Nat.zero_le _, .inl ⟨s, _, rfl, hnmi, hb, .inr rfl⟩⟩
    · rw [hnmi, htake] at hnot
      cases hnot
    · cases hstep : step s with
      | next t =>
        have htape : t.host = rest := by rw [(step_host hstep).1, hhost, List.tail_cons]
        have hpending : t.nmiPending = true := by
          rcases pendingNmiIsNotLost s t (by rw [hnmi]; rfl) hstep with hkept | hreset | ⟨_, hentered⟩
          · exact hkept
          · rw [hnoreset] at hreset
            cases hreset
          · rw [hb] at hentered
            cases hentered
        obtain ⟨n, hn, hrun⟩ := ih t hpending htape
        refine ⟨n + 1, by simpa [htape, hhost] using hn, ?_⟩
        rwa [run_succ_of_next hstep]
      | fault r => cases r
      | refused r => exact ⟨1, by rw [List.length_cons]; omega, .inr ⟨r, run_succ_of_refused hstep 0⟩⟩

/-- Settles O60: by the end of the tape nothing but the held level is left of the outside world, and the boundary takes what it finds. -/
theorem heldIrqIsTaken : Obligations.HeldIrqIsTaken := by
  intro s u k hheld hrun
  obtain ⟨hhost, hirq⟩ := run_host hrun
  have hended : u.host = [] := by rw [hhost, List.drop_eq_nil_of_le (Nat.le_add_right ..)]
  have hlevel : u.irqHeld = true := hirq.trans hheld
  have hin : u.input = afterTape true := by rw [input_of_nil hended, hlevel]
  refine ⟨hended, hlevel, fun hnmi hi => ?irq, fun hnmi => ?nmi⟩
  case irq =>
    have hb := boundary_of_irq (s := u) (by rw [hin]; rfl) (by rw [hin]; rfl) (by rw [hin, hnmi]; rfl) (by rw [hin]; rfl) hi
    rw [hin, applyPins_of_nil hended] at hb
    exact ⟨_, step_of_entered hb, enterHandler_enters { u with iWindow := false } u.pc false irqVector⟩
  case nmi =>
    have hb := boundary_of_nmi (s := u) (by rw [hin]; rfl) (by rw [hin]; rfl) (by rw [hnmi]; rfl)
    rw [hin, applyPins_of_nil hended] at hb
    exact ⟨_, step_of_entered hb, enterHandler_enters { u with nmiPending := false, iWindow := false } u.pc false nmiVector⟩

end Sys2Proof.Proofs
end

section
/-! PROOFS. ADC, SBC, CMP, CPX, CPY and BIT: the results and flags the model computes are the numbers the statements name. -/

namespace Sys2Proof.Machine

/-! ### A result's sign, zero and value as numbers -/

theorem bit7_eq (v : Byte) : bit7 v = decide (128 ≤ v.toNat) := getLsbD_seven v

theorem le_toNat_ofNat (n : Nat) : 128 ≤ (BitVec.ofNat 8 n).toNat ↔ 128 ≤ n % 256 := by rw [BitVec.toNat_ofNat]

theorem toNat_ofInt_byte (d : Int) : ((BitVec.ofInt 8 d).toNat : Int) = d % 256 := by
  rw [BitVec.toNat_ofInt, Int.toNat_of_nonneg (by omega)]
  rfl

theorem le_toNat_ofInt (d : Int) : 128 ≤ (BitVec.ofInt 8 d).toNat ↔ 128 ≤ d % 256 := by
  have h := toNat_ofInt_byte d
  omega

theorem ofNat_beq_zero (n : Nat) : (BitVec.ofNat 8 n == 0) = decide (n % 256 = 0) := by
  rw [Bool.eq_iff_iff, beq_iff_eq, decide_eq_true_iff, BitVec.toNat_eq, BitVec.toNat_ofNat]
  rfl

theorem ofInt_beq_zero (d : Int) : (BitVec.ofInt 8 d == 0) = decide (d % 256 = 0) := by
  have h := toNat_ofInt_byte d
  rw [Bool.eq_iff_iff, beq_iff_eq, decide_eq_true_iff, BitVec.toNat_eq]
  change (BitVec.ofInt 8 d).toNat = 0 ↔ _
  omega

/-- A byte as a signed number (40_arithmetic.md R100, V). -/
theorem toInt_byte (v : Byte) : v.toInt = if 128 ≤ v.toNat then (v.toNat : Int) - 256 else v.toNat := by
  rw [BitVec.toInt_eq_toNat_cond]
  have := v.isLt
  split <;> split <;> omega

/-! ### Binary addition and subtraction -/

/-- Two operands of one sign and a result of the other: the signed sum does not fit (40_arithmetic.md R100, decision D9). -/
theorem add_overflow_iff (a m : Byte) (c : Bool) :
    ((128 ≤ a.toNat ↔ 128 ≤ m.toNat) ∧ ¬ (128 ≤ (a.toNat + m.toNat + c.toNat) % 256 ↔ 128 ≤ a.toNat)) ↔
      a.toInt + m.toInt + c.toNat < -128 ∨ 127 < a.toInt + m.toInt + c.toNat := by
  have ha := a.isLt
  have hm := m.isLt
  have hc := c.toNat_le
  rw [toInt_byte, toInt_byte]
  split <;> split <;> omega

/-- Two operands of different signs and a result whose sign is not A's: the signed difference does not fit (40_arithmetic.md R101,
decision D9). -/
theorem sub_overflow_iff (a m : Byte) (c : Bool) :
    (¬ (128 ≤ a.toNat ↔ 128 ≤ m.toNat) ∧
        ¬ (128 ≤ ((a.toNat : Int) - m.toNat - (1 - c.toNat)) % 256 ↔ 128 ≤ a.toNat)) ↔
      a.toInt - m.toInt - (1 - c.toNat) < -128 ∨ 127 < a.toInt - m.toInt - (1 - c.toNat) := by
  have ha := a.isLt
  have hm := m.isLt
  have hc := c.toNat_le
  rw [toInt_byte, toInt_byte]
  split <;> split <;> omega

theorem beq_and_bne_decide (p q r : Prop) [Decidable p] [Decidable q] [Decidable r] :
    (decide p == decide q && decide r != decide p) = decide ((p ↔ q) ∧ ¬ (r ↔ p)) := by
  rw [Bool.eq_iff_iff]
  simp [decide_eq_decide]

theorem bne_and_bne_decide (p q r : Prop) [Decidable p] [Decidable q] [Decidable r] :
    (decide p != decide q && decide r != decide p) = decide (¬ (p ↔ q) ∧ ¬ (r ↔ p)) := by
  rw [Bool.eq_iff_iff]
  simp [decide_eq_decide]

/-- ADC with D = 0 on numbers. -/
theorem addBinary_eq (a m : Byte) (c : Bool) :
    let sum := a.toNat + m.toNat + c.toNat
    let signed := a.toInt + m.toInt + c.toNat
    addBinary a m c =
      { value := BitVec.ofNat 8 sum, n := decide (128 ≤ sum % 256), v := decide (signed < -128 ∨ 127 < signed)
        z := decide (sum % 256 = 0), c := decide (255 < sum) } := by
  intro sum signed
  simp only [addBinary, bit7_eq, le_toNat_ofNat, ofNat_beq_zero, beq_and_bne_decide, add_overflow_iff]
  rfl

/-- SBC with D = 0 on numbers. -/
theorem subBinary_eq (a m : Byte) (c : Bool) :
    let diff : Int := a.toNat - m.toNat - (1 - c.toNat)
    let signed : Int := a.toInt - m.toInt - (1 - c.toNat)
    subBinary a m c =
      { value := BitVec.ofInt 8 diff, n := decide (128 ≤ diff % 256), v := decide (signed < -128 ∨ 127 < signed)
        z := decide (diff % 256 = 0), c := decide (0 ≤ diff) } := by
  intro diff signed
  simp only [subBinary, bit7_eq, le_toNat_ofInt, ofInt_beq_zero, bne_and_bne_decide, sub_overflow_iff]
  rfl

/-! ### Decimal addition and subtraction (93_implementation_defined.md GK12) -/

theorem addDecimal_eq (a m : Byte) (c : Bool) :
    let low := a.toNat % 16 + m.toNat % 16 + c.toNat
    let sum := a.toNat / 16 * 16 + m.toNat / 16 * 16 + if 10 ≤ low then (low + 6) % 16 + 16 else low
    let adjusted := if 160 ≤ sum then sum + 96 else sum
    addDecimal a m c =
      { value := BitVec.ofNat 8 adjusted, n := decide (128 ≤ sum % 256)
        v := decide ((128 ≤ a.toNat ↔ 128 ≤ m.toNat) ∧ ¬ (128 ≤ sum % 256 ↔ 128 ≤ a.toNat))
        z := decide ((a.toNat + m.toNat + c.toNat) % 256 = 0), c := decide (256 ≤ adjusted) } := by
  intro low sum adjusted
  simp only [addDecimal, bit7_eq, le_toNat_ofNat, beq_and_bne_decide]
  rfl

theorem subDecimal_eq (a m : Byte) (c : Bool) :
    let low : Int := (a.toNat : Int) % 16 - (m.toNat : Int) % 16 + c.toNat - 1
    let total := (a.toNat : Int) / 16 * 16 - (m.toNat : Int) / 16 * 16 + if low < 0 then (low - 6) % 16 - 16 else low
    subDecimal a m c = { subBinary a m c with value := BitVec.ofInt 8 (if total < 0 then total - 96 else total) } := by
  intro low total
  simp only [subDecimal]
  push_cast
  rfl

/-! ### Binary subtraction as addition -/

theorem xor_ones_toNat (m : Byte) : (m ^^^ 0xFF).toNat = 255 - m.toNat := by
  have hnot : m ^^^ 0xFF = ~~~m := BitVec.xor_allOnes
  rw [hnot, BitVec.toNat_not]

theorem xor_ones_toInt (m : Byte) : (m ^^^ 0xFF).toInt = -1 - m.toInt := by
  have hm := m.isLt
  rw [toInt_byte, toInt_byte, xor_ones_toNat]
  split <;> split <;> omega

/-- The sum with the complemented operand is 256 more than the difference (40_arithmetic.md R101). -/
theorem add_complement (a m : Byte) (c : Bool) :
    ((a.toNat + (m ^^^ 0xFF).toNat + c.toNat : Nat) : Int) = (a.toNat : Int) - m.toNat - (1 - c.toNat) + 256 := by
  have hm := m.isLt
  rw [xor_ones_toNat]
  omega

/-! ### Decimal results -/

/-- A byte made of two decimal digits, and the number they stand for. -/
theorem bcd_of_digits {v : Byte} {high low : Nat} (hhigh : high < 10) (hlow : low < 10) (hv : v.toNat = high * 16 + low) :
    Claims.isBcd v ∧ Claims.bcdValue v = high * 10 + low := by
  have hdiv : v.toNat / 16 = high := by omega
  have hmod : v.toNat % 16 = low := by omega
  rw [Claims.isBcd, Claims.bcdValue, hdiv, hmod]
  exact ⟨⟨hhigh, hlow⟩, rfl⟩

/-- Two digits and a carry added, with 6 or 96 to skip the bytes that are no digits: the two digits of the sum modulo 100. -/
theorem decimal_sum {ah al mh ml k sum adjusted : Nat} (hah : ah < 10) (hal : al < 10) (hmh : mh < 10) (hml : ml < 10) (hk : k ≤ 1)
    (hsum : sum = ah * 16 + mh * 16 + if 10 ≤ al + ml + k then (al + ml + k + 6) % 16 + 16 else al + ml + k)
    (hadjusted : adjusted = if 160 ≤ sum then sum + 96 else sum) :
    (∃ high low, high < 10 ∧ low < 10 ∧ adjusted % 256 = high * 16 + low ∧
      (ah * 10 + al + (mh * 10 + ml) + k) % 100 = high * 10 + low) ∧
      (256 ≤ adjusted ↔ 100 ≤ ah * 10 + al + (mh * 10 + ml) + k) := by
  obtain ⟨tens, low, hlow, hsum', htotal⟩ : ∃ tens low, low < 10 ∧ sum = tens * 16 + low ∧
      ah * 10 + al + (mh * 10 + ml) + k = tens * 10 + low := by
    split at hsum
    · exact ⟨ah + mh + 1, al + ml + k - 10, by omega⟩
    · exact ⟨ah + mh, al + ml + k, by omega⟩
  rw [htotal]
  split at hadjusted
  · exact ⟨⟨tens - 10, low, by omega⟩, by omega⟩
  · exact ⟨⟨tens, low, by omega⟩, by omega⟩

/-- Two digits and a borrow subtracted, with 6 or 96 to skip the bytes that are no digits: the two digits of the difference modulo
100. -/
theorem decimal_difference {ah al mh ml k diff adjusted : Int} (hah : 0 ≤ ah ∧ ah < 10) (hal : 0 ≤ al ∧ al < 10)
    (hmh : 0 ≤ mh ∧ mh < 10) (hml : 0 ≤ ml ∧ ml < 10) (hk : 0 ≤ k ∧ k ≤ 1)
    (hdiff : diff = ah * 16 - mh * 16 + if al - ml + k - 1 < 0 then (al - ml + k - 1 - 6) % 16 - 16 else al - ml + k - 1)
    (hadjusted : adjusted = if diff < 0 then diff - 96 else diff) :
    ∃ high low : Nat, high < 10 ∧ low < 10 ∧ adjusted % 256 = high * 16 + low ∧
      (ah * 10 + al - (mh * 10 + ml) - (1 - k)) % 100 = high * 10 + low := by
  obtain ⟨tens, low, hlow, hdiff', htotal⟩ : ∃ tens low : Int, (0 ≤ low ∧ low < 10) ∧ diff = tens * 16 + low ∧
      ah * 10 + al - (mh * 10 + ml) - (1 - k) = tens * 10 + low := by
    split at hdiff
    · exact ⟨ah - mh - 1, al - ml + k + 9, by omega⟩
    · exact ⟨ah - mh, al - ml + k - 1, by omega⟩
  rw [htotal]
  split at hadjusted
  · exact ⟨(tens + 10).toNat, low.toNat, by omega⟩
  · exact ⟨tens.toNat, low.toNat, by omega⟩

end Sys2Proof.Machine

namespace Sys2Proof.Proofs

open Sys2Proof.Machine Sys2Proof.Claims

/-- Settles O27: the operand complemented is 255 less it, so sum and difference are 256 apart, and so are no two of their flags. -/
theorem sbcIsAdcOfTheComplement : Obligations.SbcIsAdcOfTheComplement := by
  intro a m c
  have hsum := add_complement a m c
  have hsigned := xor_ones_toInt m
  rw [subBinary_eq, addBinary_eq, AluResult.mk.injEq]
  refine ⟨?result, ?sign, ?overflow, ?zero, ?carry⟩
  case result =>
    apply BitVec.eq_of_toNat_eq
    have hvalue := toNat_ofInt_byte ((a.toNat : Int) - m.toNat - (1 - c.toNat))
    rw [BitVec.toNat_ofNat]
    omega
  all_goals
    rw [decide_eq_decide]
    omega

/-- Settles O29: sum and difference are taken digit by digit, with what the adjustments skip. -/
theorem decimalResultsAreDecimal : Obligations.DecimalResultsAreDecimal := by
  rintro a m c ⟨ha1, ha0⟩ ⟨hm1, hm0⟩
  have hc := c.toNat_le
  constructor
  case left =>
    obtain ⟨⟨high, low, hhigh, hlow, hvalue, htotal⟩, hcarry⟩ := decimal_sum ha1 ha0 hm1 hm0 hc rfl rfl
    rw [addDecimal_eq]
    obtain ⟨hbcd, hnumber⟩ := bcd_of_digits hhigh hlow ((BitVec.toNat_ofNat ..).trans hvalue)
    exact ⟨hbcd, hnumber.trans htotal.symm, decide_eq_decide.2 hcarry⟩
  case right =>
    obtain ⟨high, low, hhigh, hlow, hvalue, htotal⟩ := decimal_difference (ah := (a.toNat : Int) / 16) (al := (a.toNat : Int) % 16)
      (mh := (m.toNat : Int) / 16) (ml := (m.toNat : Int) % 16) (k := c.toNat)
      (by omega) (by omega) (by omega) (by omega) (by omega) rfl rfl
    have hvalue' : ((subDecimal a m c).value.toNat : Int) = high * 16 + low := by
      rw [subDecimal_eq]
      exact (toNat_ofInt_byte _).trans hvalue
    obtain ⟨hbcd, hnumber⟩ := bcd_of_digits hhigh hlow (by exact_mod_cast hvalue')
    refine ⟨hbcd, ?_, ?_⟩
    · rw [hnumber]
      push_cast [bcdValue]
      exact htotal.symm
    · rw [subDecimal_eq, subBinary_eq, decide_eq_decide, bcdValue, bcdValue]
      push_cast
      omega

/-- A form that runs ADC and whose encoding is as long as its operand says meets its statement with D = 0 (40_arithmetic.md R100). -/
theorem addsBinary_of_exec {i : Instr} {bytes : List Byte} {src : Source} (hbytes : encode i = bytes)
    (hlength : bytes.length = src.length) (hexec : ∀ s, exec i s = opAdc src s) : AddsBinary i bytes src := by
  refine ⟨hbytes, fun s hd => ?_⟩
  obtain ⟨k, hk⟩ := accumulate_eq addBinary src s
  have hrun : exec i s = .next (accumulate addBinary src s) := by
    rw [hexec, opAdc, addOrSubtract_eq, if_neg (by simp [hd]), if_neg (by simp [hd])]
  refine ⟨k, ?_⟩
  rw [hrun, hk, addBinary_eq, past, hlength]
  rfl

/-- A form that runs SBC and whose encoding is as long as its operand says meets its statement with D = 0 (40_arithmetic.md R101). -/
theorem subtractsBinary_of_exec {i : Instr} {bytes : List Byte} {src : Source} (hbytes : encode i = bytes)
    (hlength : bytes.length = src.length) (hexec : ∀ s, exec i s = opSbc src s) : SubtractsBinary i bytes src := by
  refine ⟨hbytes, fun s hd => ?_⟩
  obtain ⟨k, hk⟩ := accumulate_eq subBinary src s
  have hrun : exec i s = .next (accumulate subBinary src s) := by
    rw [hexec, opSbc, addOrSubtract_eq, if_neg (by simp [hd]), if_neg (by simp [hd])]
  refine ⟨k, ?_⟩
  rw [hrun, hk, subBinary_eq, past, hlength]
  rfl

/-- The same with D = 1 where the policy is `nmosBcd` (93_implementation_defined.md GK12). -/
theorem addsDecimal_of_exec {i : Instr} {bytes : List Byte} {src : Source} (hbytes : encode i = bytes)
    (hlength : bytes.length = src.length) (hexec : ∀ s, exec i s = opAdc src s) : AddsDecimal i bytes src := by
  refine ⟨hbytes, fun s hd hpolicy => ?_⟩
  obtain ⟨k, hk⟩ := accumulate_eq addDecimal src s
  have hrun : exec i s = .next (accumulate addDecimal src s) := by
    rw [hexec, opAdc, addOrSubtract_eq, if_neg (by simp [hpolicy]), if_pos hd]
  refine ⟨k, ?_⟩
  rw [hrun, hk, addDecimal_eq, past, hlength]
  rfl

theorem subtractsDecimal_of_exec {i : Instr} {bytes : List Byte} {src : Source} (hbytes : encode i = bytes)
    (hlength : bytes.length = src.length) (hexec : ∀ s, exec i s = opSbc src s) : SubtractsDecimal i bytes src := by
  refine ⟨hbytes, fun s hd hpolicy => ?_⟩
  obtain ⟨k, hk⟩ := accumulate_eq subDecimal src s
  have hrun : exec i s = .next (accumulate subDecimal src s) := by
    rw [hexec, opSbc, addOrSubtract_eq, if_neg (by simp [hpolicy]), if_pos hd]
  refine ⟨k, ?_⟩
  rw [hrun, hk, subDecimal_eq, subBinary_eq, past, hlength]
  rfl

/-- Settles O25: the bytes, the length and the operand of each of the eight forms are its row of the table. -/
theorem adcAddsWithCarry : Obligations.AdcAddsWithCarry := by
  unfold Obligations.AdcAddsWithCarry
  and_intros
  all_goals exact fun _ => addsBinary_of_exec rfl rfl fun _ => rfl

/-- Settles O26: the bytes, the length and the operand of each of the eight forms are its row of the table. -/
theorem sbcSubtractsWithBorrow : Obligations.SbcSubtractsWithBorrow := by
  unfold Obligations.SbcSubtractsWithBorrow
  and_intros
  all_goals exact fun _ => subtractsBinary_of_exec rfl rfl fun _ => rfl

/-- Settles O28: the same sixteen rows, with D = 1. -/
theorem decimalArithmeticRuns : Obligations.DecimalArithmeticRuns := by
  refine ⟨?adcImm, ?adcZp, ?adcZpx, ?adcAbs, ?adcAbx, ?adcAby, ?adcIzx, ?adcIzy, ?sbcImm, ?sbcZp, ?sbcZpx, ?sbcAbs, ?sbcAbx, ?sbcAby,
    ?sbcIzx, ?sbcIzy⟩
  case adcImm | adcZp | adcZpx | adcAbs | adcAbx | adcAby | adcIzx | adcIzy =>
    exact fun _ => addsDecimal_of_exec rfl rfl fun _ => rfl
  case sbcImm | sbcZp | sbcZpx | sbcAbs | sbcAbx | sbcAby | sbcIzx | sbcIzy =>
    exact fun _ => subtractsDecimal_of_exec rfl rfl fun _ => rfl

/-- The flags of a compare on numbers (40_arithmetic.md R103 to R105, decision D11). -/
theorem compare_eq (p : Flags) (reg m : Byte) :
    p.compare reg m = { p with
      c := decide (m.toNat ≤ reg.toNat), z := decide (reg = m)
      n := decide (128 ≤ ((reg.toNat : Int) - m.toNat) % 256) } := by
  have hn : bit7 (reg - m) = decide (128 ≤ ((reg.toNat : Int) - m.toNat) % 256) := by
    have hreg := reg.isLt
    have hm := m.isLt
    rw [bit7_eq, decide_eq_decide, BitVec.toNat_sub]
    omega
  rw [Flags.compare, hn, beq_eq_decide]

/-- A form that runs a compare with a register that PC, memory, the bus and the draw counter are no part of, and whose encoding is
as long as its operand says, meets its statement. -/
theorem compares_of_exec {i : Instr} {bytes : List Byte} {src : Source} {reg : State → Byte}
    (hreg : ∀ s w m b k, reg { s with pc := w, mem := m, bus := b, draws := k } = reg s) (hbytes : encode i = bytes)
    (hlength : bytes.length = src.length) (hexec : ∀ s, exec i s = compareWith reg src s) : Compares i bytes src reg := by
  refine ⟨hbytes, fun s => ?_⟩
  obtain ⟨k, hk⟩ := compareWith_eq reg (hreg s) src
  exact ⟨k, by rw [hexec, hk, compare_eq, ← hlength]; rfl⟩

/-- Settles O30: the bytes, the length, the operand and the register of each of the fourteen forms are its row of the table. -/
theorem comparesSetCarryZeroNegative : Obligations.ComparesSetCarryZeroNegative := by
  unfold Obligations.ComparesSetCarryZeroNegative
  and_intros
  all_goals exact fun _ => compares_of_exec (fun _ _ _ _ _ => rfl) rfl rfl fun _ => rfl

/-- A form that runs BIT and whose encoding is as long as its operand says meets its statement (41_logical.md R111). -/
theorem testsBits_of_exec {i : Instr} {bytes : List Byte} {src : Source} (hbytes : encode i = bytes)
    (hlength : bytes.length = src.length) (hexec : ∀ s, exec i s = opBit src s) : TestsBits i bytes src := by
  refine ⟨hbytes, fun s => ?_⟩
  obtain ⟨k, hk⟩ := opBit_eq src s
  exact ⟨k, by rw [hexec, hk, Flags.bitTest, beq_eq_decide, ← hlength]; rfl⟩

/-- Settles O32: the bytes, the length and the operand of both forms are their rows of the table. -/
theorem bitTestsTheOperand : Obligations.BitTestsTheOperand :=
  ⟨fun _ => testsBits_of_exec rfl rfl fun _ => rfl, fun _ => testsBits_of_exec rfl rfl fun _ => rfl⟩

end Sys2Proof.Proofs
end

section
/-! PROOFS. Branches and JMP: the sums of PC are those the statements name. -/

namespace Sys2Proof.Machine

/-- A displacement added to the address after a branch is the signed sum modulo 65536 (43_branch.md R130, decision D13). -/
theorem branch_target (pc : Addr) (d : Byte) : pc + 2 + sext16 d = BitVec.ofInt 16 (pc.toNat + 2 + d.toInt) := by
  have hd : sext16 d = BitVec.ofInt 16 d.toInt := rfl
  have hpc : pc + 2 = BitVec.ofInt 16 (pc.toNat + 2) := by
    rw [BitVec.ofInt_add, BitVec.ofInt_natCast, BitVec.ofNat_toNat, BitVec.setWidth_eq]
    rfl
  rw [hd, hpc, ← BitVec.ofInt_add]

end Sys2Proof.Machine

namespace Sys2Proof.Proofs

open Sys2Proof.Machine Sys2Proof.Claims

/-- A two-byte form that runs the common branch rule meets its statement (43_branch.md R130). -/
theorem branches_of_exec {i : Instr} {bytes : List Byte} {d : Byte} {condition : State → Bool} (hbytes : encode i = bytes)
    (hlength : bytes.length = 2) (hexec : ∀ s, exec i s = branchIf (condition s) d s) : Branches i bytes d condition := by
  refine ⟨hbytes, fun s => ?_⟩
  have hpast : past s bytes = s.pc + 2 := by rw [past, hlength]; rfl
  rw [hexec, branchIf_eq, branch_target, ← hpast]
  rfl

/-- Settles O39: the bytes and the condition of each of the eight branches are its row of the table. -/
theorem branchesAddTheDisplacement : Obligations.BranchesAddTheDisplacement := by
  unfold Obligations.BranchesAddTheDisplacement
  and_intros
  all_goals exact fun _ => branches_of_exec rfl rfl fun _ => rfl

/-- Settles O40: JMP moves PC past its bytes first and then writes it, and its pointer does not depend on PC. -/
theorem jmpSetsPc : Obligations.JmpSetsPc := by
  refine ⟨fun w => ⟨rfl, fun s => rfl⟩, fun w => ⟨rfl, fun s => ?_⟩⟩
  obtain ⟨k, hk⟩ := jumpPointer_state s w
  have hexec : exec (.jmpInd w) s = .next (((s.advance 3).jumpPointer w).2.setPc ((s.advance 3).jumpPointer w).1) := rfl
  exact ⟨k, by rw [hexec, advance_eq, jumpPointer_setPc, hk, busTurns_eq]; rfl⟩

end Sys2Proof.Proofs
end

section
/-! PROOFS. The other bus masters and the operands: what the turns before an access leave, which byte an operand is, and the effective
addresses that need no read. -/

namespace Sys2Proof.Proofs

open Sys2Proof.Machine Sys2Proof.Claims

/-- Settles O59: the laws of the turns, of a read and of a write, and the last byte of a turn's list is the one that stays. -/
theorem accessesFollowTheBusMasters : Obligations.AccessesFollowTheBusMasters := by
  intro s
  refine ⟨fun n => ⟨busTurns_eq s n, busTurns_peek s n⟩, busTurns_of_quiet, fun ws rest a v hbus hram => ?turn, fun a => ?read,
    fun a v => ⟨memWrite_after s a v, memWrite_registersOf s a v, memWrite_draws s a v⟩⟩
  case turn =>
    rw [busTurns_peek, State.byteAfter, if_pos hram, hbus]
    simp [reads, traffic]
  case read => exact memRead_eq s a

/-- Settles O20: a memory operand is read after the pointer's reads of its mode, and the read goes by the kind of region. -/
theorem operandByteByRegionKind : Obligations.OperandByteByRegionKind := by
  have hreads : ∀ n, reads n ++ [none] = reads (n + 1) := fun n => List.replicate_succ'.symm
  have hmem : ∀ (place : Place) (s : State), s.readable (address place s) = true →
      operand (.mem place) s = s.byteAfter (reads (place.pointerReads + 1)) (address place s) := by
    intro place s hread
    rw [operand, fetch_value, State.byteRead, ← address, if_pos hread, hreads]
  refine ⟨fun _ _ => rfl, hmem, fun place s hread hbus => ?quiet, fun place s hread => ?free⟩
  case quiet => rw [hmem place s hread, ← busTurns_peek, busTurns_of_quiet hbus]
  case free =>
    have hfetch : (Source.mem place).fetch s = (place.resolve s).2.memRead (address place s) := rfl
    rw [operand, hfetch, memRead_of_not_readable (by rwa [resolve_readable])]
    exact ⟨rfl, rfl⟩

/-- Settles O21: page-zero addresses are bytes, so their sums wrap modulo 256, the others modulo 65536. -/
theorem directModesAddresses : Obligations.DirectModesAddresses := by
  intro s b w
  refine ⟨zeroPageAddr_toNat b, ?zeroPageX, ?zeroPageY, rfl, ?absoluteX, ?absoluteY, ?noRead⟩
  case zeroPageX => exact (zeroPageAddr_toNat (b + s.x)).trans (BitVec.toNat_add b s.x)
  case zeroPageY => exact (zeroPageAddr_toNat (b + s.y)).trans (BitVec.toNat_add b s.y)
  case absoluteX => exact (BitVec.toNat_add w (zext16 s.x)).trans (by rw [zext16_toNat])
  case absoluteY => exact (BitVec.toNat_add w (zext16 s.y)).trans (by rw [zext16_toNat])
  case noRead =>
    intro place hplace
    fin_cases hplace
    all_goals rfl

end Sys2Proof.Proofs
end

section
/-! PROOFS. The stack: what a push leaves and a pull gives, and that a return undoes the call or the entry before it. -/

namespace Sys2Proof.Machine

/-! ### Bytes that no other bus master writes -/

/-- Where no other bus master writes, RAM holds the last byte of the accesses' own writes, if any (20_memory.md R54). -/
theorem byteAfter_of_untouched {s : State} {c : Addr} (h : s.Untouched c) (hram : s.kindAt c = .ram) (accesses : List Access) :
    s.byteAfter accesses c =
      (accesses.filterMap id).foldl (fun held w => if w.1 = c then w.2 else held) (s.peek c) := by
  rw [State.byteAfter, if_pos hram]
  generalize s.peek c = held
  have hbus : ∀ turn ∈ s.bus, ∀ w ∈ turn, w.1 ≠ c := h
  generalize s.bus = bus at hbus
  induction accesses generalizing bus held with
  | nil => rfl
  | cons access rest ih =>
    have hturn : ∀ w ∈ bus.headD [], w.1 ≠ c := by
      cases bus with
      | nil => simp
      | cons turn later => exact hbus turn (by simp)
    have hlater := fun v => ih v bus.tail fun turn hmem => hbus turn (List.mem_of_mem_tail hmem)
    rw [traffic, List.foldl_append, List.foldl_append, foldl_untouched _ _ hturn, hlater]
    cases access <;> rfl

/-- A read of memory that no other bus master writes gives the byte it holds, however many reads came before. -/
theorem byteRead_of_untouched {s : State} {c : Addr} (h : s.Untouched c) (hread : s.readable c = true) (n d : Nat) :
    s.byteRead (reads n) d c = s.peek c := by
  have hreads : reads n ++ [none] = reads (n + 1) := List.replicate_succ'.symm
  rw [State.byteRead, if_pos hread, hreads, ← busTurns_peek, busTurns_peek_untouched h]

theorem drawsFor_of_readable {s : State} {c : Addr} (h : s.readable c = true) : s.drawsFor c = 0 := if_pos h

theorem readable_of_ram {s : State} {c : Addr} (h : s.kindAt c = .ram) : s.readable c = true := by rw [State.readable, h]

theorem kindAt_of_memMap_eq {s t : State} (h : t.memMap = s.memMap) (c : Addr) : t.kindAt c = s.kindAt c := by
  rw [State.kindAt, State.kindAt, h]

/-! ### Different stack locations -/

theorem add_one_add_one (v : Byte) : v + 1 + 1 = v + 2 := by
  rw [add_assoc]
  rfl

theorem add_one_add_one_add_one (v : Byte) : v + 1 + 1 + 1 = v + 3 := by
  rw [add_assoc, add_assoc]
  rfl

/-- A pulled word by its number. -/
theorem joinBytes_byteRead_eq (s : State) (before : List Access) (d : Nat) (lo hi : Addr) :
    joinBytes (s.byteRead (before ++ [none]) (d + s.drawsFor lo) hi) (s.byteRead before d lo) =
      BitVec.ofNat 16 (s.wordRead before d lo hi) := by
  rw [State.wordRead, ← joinBytes_toNat, BitVec.ofNat_toNat, BitVec.setWidth_eq]

/-! ### The returns in full -/

/-- JSR in full: the address pushed is that of its last byte, two past its opcode (47_jump_subroutine.md R171). -/
theorem exec_jsr_eq (w : Addr) (s : State) : exec (.jsr w) s = .next (((s.advance 3).push16 (s.pc + 2)).setPc w) := by
  have hret : (s.advance 3).pc - 1 = s.pc + 2 := by
    rw [advance_pc, add_sub_assoc]
    rfl
  rw [← hret]
  rfl

/-- RTS in full: PC one past the pulled address, SP two higher (47_jump_subroutine.md R172). -/
theorem exec_rts_eq (s : State) :
    exec .rts s = .next { s with
      pc := joinBytes (s.byteRead [none] (s.draws + s.drawsFor (stackAddr (s.sp + 1))) (stackAddr (s.sp + 1 + 1)))
        (s.byteRead [] s.draws (stackAddr (s.sp + 1))) + 1
      sp := s.sp + 1 + 1, mem := (s.busTurns 2).mem, bus := s.bus.drop 2
      draws := s.draws + s.drawsFor (stackAddr (s.sp + 1)) + s.drawsFor (stackAddr (s.sp + 1 + 1)) } := by
  have hexec : exec .rts s = .next ((s.advance 1).pull16.2.setPc ((s.advance 1).pull16.1 + 1)) := rfl
  rw [hexec, pull16_full, advance_eq, busTurns_setPc, busTurns_eq]
  rfl

/-- The return from a handler in full: the flags and then PC pulled, SP three higher (44_system.md R142). -/
theorem returnFromHandler_eq (s : State) :
    s.returnFromHandler = { s with
      p := Flags.unpack (s.byteRead [] s.draws (stackAddr (s.sp + 1)))
      pc := joinBytes
        (s.byteRead (reads 2) (s.draws + s.drawsFor (stackAddr (s.sp + 1)) + s.drawsFor (stackAddr (s.sp + 1 + 1)))
          (stackAddr (s.sp + 1 + 1 + 1)))
        (s.byteRead (reads 1) (s.draws + s.drawsFor (stackAddr (s.sp + 1))) (stackAddr (s.sp + 1 + 1)))
      sp := s.sp + 1 + 1 + 1, mem := (s.busTurns 3).mem, bus := s.bus.drop 3
      draws := s.draws + s.drawsFor (stackAddr (s.sp + 1)) + s.drawsFor (stackAddr (s.sp + 1 + 1)) +
        s.drawsFor (stackAddr (s.sp + 1 + 1 + 1)) } := by
  have hturn := (busTurn_after s).congr
    (v := s.pull8.2.setP (Flags.unpack s.pull8.1)) ⟨rfl, rfl, rfl, rfl⟩ (by rw [pull8_eq]; exact ⟨rfl, rfl, rfl⟩)
  have hread := fun before d c => hturn.byteRead (by simp) before d c
  rw [State.returnFromHandler, pull16_full]
  simp only [hread]
  ext1
  case mem | pc | draws | p =>
    simp only [pull8_eq]
    rfl
  case bus => simp [pull8_eq]
  all_goals simp

/-- RTI in full: nothing of the instruction's own address stays. -/
theorem exec_rti_eq (s : State) : exec .rti s = .next s.returnFromHandler := by
  have hexec : exec .rti s = .next (s.advance 1).returnFromHandler := rfl
  rw [hexec, returnFromHandler_eq, returnFromHandler_eq s, advance_eq, busTurns_setPc]
  rfl

/-- RTS where no other bus master writes the two bytes it pulls, and both can be read. -/
theorem exec_rts_of_untouched {u : State} (hkeep : u.Untouched (stackAddr (u.sp + 1)) ∧ u.Untouched (stackAddr (u.sp + 1 + 1)))
    (hread : u.readable (stackAddr (u.sp + 1)) = true ∧ u.readable (stackAddr (u.sp + 1 + 1)) = true) :
    exec .rts u = .next { u with
      pc := joinBytes (u.peek (stackAddr (u.sp + 1 + 1))) (u.peek (stackAddr (u.sp + 1))) + 1
      sp := u.sp + 1 + 1, mem := (u.busTurns 2).mem, bus := u.bus.drop 2 } := by
  have hlow := byteRead_of_untouched hkeep.1 hread.1 0 u.draws
  have hhigh := byteRead_of_untouched hkeep.2 hread.2 1 u.draws
  rw [exec_rts_eq, drawsFor_of_readable hread.1, drawsFor_of_readable hread.2, ← hlow, ← hhigh]
  rfl

/-- The return from a handler where no other bus master writes the three bytes it pulls, and all can be read. -/
theorem returnFromHandler_of_untouched {u : State}
    (h : ∀ c ∈ [stackAddr (u.sp + 1), stackAddr (u.sp + 1 + 1), stackAddr (u.sp + 1 + 1 + 1)], u.Untouched c ∧ u.readable c = true) :
    u.returnFromHandler = { u with
      p := Flags.unpack (u.peek (stackAddr (u.sp + 1)))
      pc := joinBytes (u.peek (stackAddr (u.sp + 1 + 1 + 1))) (u.peek (stackAddr (u.sp + 1 + 1)))
      sp := u.sp + 1 + 1 + 1, mem := (u.busTurns 3).mem, bus := u.bus.drop 3 } := by
  simp only [List.forall_mem_cons] at h
  obtain ⟨⟨hkeepP, hreadP⟩, ⟨hkeepLow, hreadLow⟩, ⟨hkeepHigh, hreadHigh⟩, -⟩ := h
  have hp := byteRead_of_untouched hkeepP hreadP 0 u.draws
  have hlow := byteRead_of_untouched hkeepLow hreadLow 1 u.draws
  have hhigh := byteRead_of_untouched hkeepHigh hreadHigh 2 u.draws
  rw [returnFromHandler_eq, drawsFor_of_readable hreadP, drawsFor_of_readable hreadLow, drawsFor_of_readable hreadHigh,
    ← hp, ← hlow, ← hhigh]
  rfl

/-! ### What the pushes left -/

/-- The two bytes of a pushed word, where no other bus master writes them. -/
theorem push16_peek_of_untouched {s : State} (w : Addr) {c : Addr} (hram : s.kindAt c = .ram) (hkeep : s.Untouched c) :
    (s.push16 w).peek c =
      if c = stackAddr (s.sp - 1) then lowByte w else if c = stackAddr s.sp then highByte w else s.peek c := by
  rw [(push16_after s w).1 c, byteAfter_of_untouched hkeep hram]
  simp [eq_comm]

/-- The three bytes an entry stacks, where no other bus master writes them. -/
theorem enterHandler_peek_of_untouched {s : State} (ret : Addr) (b : Bool) (vector : Addr) {c : Addr}
    (hram : s.kindAt c = .ram) (hkeep : s.Untouched c) :
    (s.enterHandler ret b vector).peek c =
      if c = stackAddr (s.sp - 2) then s.p.pack b else if c = stackAddr (s.sp - 1) then lowByte ret
      else if c = stackAddr s.sp then highByte ret else s.peek c := by
  rw [(enterHandler_full s ret b vector).1.1 c, byteAfter_of_untouched hkeep hram, sub_one_sub_one]
  simp [eq_comm, reads]

end Sys2Proof.Machine

namespace Sys2Proof.Proofs

open Sys2Proof.Machine Sys2Proof.Claims

/-- Settles O56: each of the pushed bits is the one the statement names, and the pull takes the six flags' bits alone. -/
theorem statusByteRoundTrip : Obligations.StatusByteRoundTrip := by
  refine ⟨fun p b => ⟨pack_eq_statusByte p b, ?back⟩, fun v => ?discarded⟩
  case back =>
    obtain ⟨n, v, d, i, z, c⟩ := p
    revert n v d i z c b
    decide
  case discarded => simp [Flags.unpack]

/-- Settles O49: SEI is the window's rule for the flags with I set. -/
theorem seiSetsIAndOpensTheWindow : Obligations.SeiSetsIAndOpensTheWindow := by
  refine ⟨rfl, fun s => ?_⟩
  have hexec : exec .sei s = .next ((s.advance 1).openWindowFor { s.p with i := true }) := rfl
  rw [hexec, Host.Outcome.next.injEq]
  ext1
  case iWindow => simp [Bool.or_comm]
  all_goals simp

/-- Settles O50: one push each, at the address SP names before it. -/
theorem pushesStoreBelow : Obligations.PushesStoreBelow := by
  have hpush : ∀ (s : State) (v : Byte), s.After ((s.advance 1).push8 v) [some (stackAddr s.sp, v)] ∧
      RegistersOf { s with sp := s.sp - 1, pc := s.pc + 1 } ((s.advance 1).push8 v) := by
    intro s v
    refine ⟨(push8_after (s.advance 1) v).congr ⟨rfl, rfl, rfl, rfl⟩ ⟨rfl, rfl, rfl⟩, ?_⟩
    rw [RegistersOf]
    ext1 <;> simp
  refine ⟨⟨rfl, fun s => ⟨_, rfl, hpush s s.a⟩⟩, ⟨rfl, fun s => ⟨_, rfl, ?php⟩⟩⟩
  case php => exact pack_eq_statusByte s.p true ▸ hpush s (s.p.pack true)

/-- Settles O41: the address of the last byte of JSR is one less than that after it, and is pushed high byte first. -/
theorem jsrPushesTheLastByteAddress : Obligations.JsrPushesTheLastByteAddress := by
  refine fun w => ⟨rfl, fun s => ?_⟩
  refine ⟨_, exec_jsr_eq w s, (push16_after (s.advance 3) (s.pc + 2)).congr ⟨rfl, rfl, rfl, rfl⟩ ⟨rfl, rfl, rfl⟩, ?_⟩
  rw [RegistersOf]
  ext1
  case sp => exact (push16_sp ..).trans (sub_one_sub_one s.sp)
  all_goals simp

/-- Settles O42: the pulled word's number, and one, modulo 65536. -/
theorem rtsPullsAndAddsOne : Obligations.RtsPullsAndAddsOne := by
  refine ⟨rfl, fun s => ?_⟩
  have hword := joinBytes_byteRead_eq s [] s.draws (stackAddr (s.sp + 1)) (stackAddr (s.sp + 2))
  exact ⟨_, by rw [exec_rts_eq, add_one_add_one]; dsimp only; rw [BitVec.ofNat_add, ← hword]; rfl⟩

/-- Settles O46: the status byte's six bits, then the pulled word's number. -/
theorem rtiPullsFlagsAndPc : Obligations.RtiPullsFlagsAndPc := by
  refine ⟨rfl, fun s => ?_⟩
  have hword := joinBytes_byteRead_eq s (reads 1) (s.draws + s.drawsFor (stackAddr (s.sp + 1)))
    (stackAddr (s.sp + 2)) (stackAddr (s.sp + 3))
  exact ⟨_, by rw [exec_rti_eq, returnFromHandler_eq, add_one_add_one_add_one, add_one_add_one]; dsimp only; rw [← hword]; rfl⟩

/-- Settles O51: one pull each; PLP by the window's rule. -/
theorem pullsLoadAAndTheFlags : Obligations.PullsLoadAAndTheFlags := by
  refine ⟨⟨rfl, fun s => ?pla⟩, ⟨rfl, fun s => ?plp⟩⟩
  case pla =>
    have hexec : exec .pla s = .next (setANZ (s.advance 1).pull8.1 (s.advance 1).pull8.2) := rfl
    rw [hexec, setANZ_eq]
    refine ⟨(s.advance 1).pull8.2.draws, congrArg _ ?_⟩
    ext1
    case mem | a | p =>
      simp only [pull8_eq]
      rfl
    case bus => simp [pull8_eq]
    all_goals simp
  case plp =>
    have hexec : exec .plp s = .next ((s.advance 1).pull8.2.openWindowFor (Flags.unpack (s.advance 1).pull8.1)) := rfl
    refine ⟨(s.advance 1).pull8.2.draws, hexec.trans (congrArg _ ?_)⟩
    ext1
    case iWindow => simp [pull8_eq, Bool.or_comm]; rfl
    case bus => simp [pull8_eq]
    case mem | p =>
      simp [pull8_eq]
      rfl
    all_goals simp

/-- Settles O52: the read's address has the number the statement names; without other bus masters the turn does nothing, and
a byte just pushed is the one memory holds there. -/
theorem pullReadsAboveTheStackPointer : Obligations.PullReadsAboveTheStackPointer := by
  have hread : ∀ (s : State) (c : Addr), c.toNat = 256 + (s.sp.toNat + 1) % 256 →
      s.pull8 = (s.byteRead [] s.draws c,
        { s with sp := s.sp + 1, mem := (s.busTurns 1).mem, bus := s.bus.tail, draws := s.draws + s.drawsFor c }) := by
    intro s c hc
    have haddr : c = stackAddr (s.sp + 1) := by
      apply BitVec.eq_of_toNat_eq
      rw [hc, stackAddr_toNat, BitVec.toNat_add]
      rfl
    rw [haddr, pull8_eq]
    rfl
  refine ⟨hread, fun s c hc hreadable hquiet => ?quiet, fun s v c hc hram huntouched => ⟨?pushed, by simp⟩⟩
  case quiet =>
    have hbyte : s.byteRead [] s.draws c = s.peek c := byteRead_of_quiet hquiet hreadable 0 s.draws
    have hbus : s.bus.tail = s.bus := by rw [hquiet, List.tail_nil]
    rw [hread s c hc, hbyte, drawsFor_of_readable hreadable, busTurns_of_quiet hquiet, hbus]
    rfl
  case pushed =>
    have haddr : c = stackAddr s.sp := BitVec.eq_of_toNat_eq (hc.trans (stackAddr_toNat s.sp).symm)
    have hheld : s.byteAfter [some (c, v), none] c = v := by
      rw [byteAfter_of_untouched huntouched hram]
      simp
    have hreadable : s.readable c = true := readable_of_ram hram
    rw [pull8_eq, push8_sp, sub_add_cancel, (push8_after s v).byteRead (push8_memMap s v), ← haddr, State.byteRead,
      if_pos hreadable]
    exact hheld

/-- Settles O43: the bytes JSR has pushed are those RTS pulls, and one past the address they give is the instruction after JSR. -/
theorem rtsUndoesJsr : Obligations.RtsUndoesJsr := by
  intro s t u w hramHigh hramLow hkeepHigh hkeepLow hjsr hsp hmap hfreeHigh hfreeLow hpeekHigh hpeekLow
  obtain rfl := Host.Outcome.next.inj ((exec_jsr_eq w s).symm.trans hjsr)
  have hhigh : u.peek (stackAddr s.sp) = highByte (s.pc + 2) := by
    rw [hpeekHigh]
    exact (push16_peek_of_untouched (s := s.advance 3) (s.pc + 2) hramHigh hkeepHigh).trans (by simp [eq_comm (a := s.sp)])
  have hlow : u.peek (stackAddr (s.sp - 1)) = lowByte (s.pc + 2) := by
    rw [hpeekLow]
    exact (push16_peek_of_untouched (s := s.advance 3) (s.pc + 2) hramLow hkeepLow).trans (by simp)
  have hone : u.sp + 1 = s.sp - 1 := by rw [hsp, setPc_sp, push16_sp, advance_sp, sub_add_cancel]
  have htwo : u.sp + 1 + 1 = s.sp := by rw [hone, sub_add_cancel]
  have hreadable : ∀ c, s.kindAt c = .ram → u.readable c = true := fun c hram =>
    readable_of_ram ((kindAt_of_memMap_eq (hmap.trans (by simp)) c).trans hram)
  rw [exec_rts_of_untouched (by rw [htwo, hone]; exact ⟨hfreeLow, hfreeHigh⟩)
      (by rw [htwo, hone]; exact ⟨hreadable _ hramLow, hreadable _ hramHigh⟩),
    htwo, hone, hhigh, hlow, joinBytes_highByte_lowByte, add_assoc]
  rfl

/-- Settles O47: the bytes the entry has pushed are those RTI pulls; the status byte gives its flags back (O56). -/
theorem rtiUndoesAnEntry : Obligations.RtiUndoesAnEntry := by
  intro s u ret b vector t hstack hsp hmap
  simp only [List.forall_mem_cons] at hstack
  obtain ⟨⟨hramHigh, hkeepHigh, hfreeHigh, hpeekHigh⟩, ⟨hramLow, hkeepLow, hfreeLow, hpeekLow⟩,
    ⟨hramP, hkeepP, hfreeP, hpeekP⟩, -⟩ := hstack
  have hhigh : u.peek (stackAddr s.sp) = highByte ret :=
    hpeekHigh.trans ((enterHandler_peek_of_untouched ret b vector hramHigh hkeepHigh).trans (by simp [eq_comm (a := s.sp)]))
  have hlow : u.peek (stackAddr (s.sp - 1)) = lowByte ret :=
    hpeekLow.trans ((enterHandler_peek_of_untouched ret b vector hramLow hkeepLow).trans (by simp))
  have hp : u.peek (stackAddr (s.sp - 2)) = s.p.pack b :=
    hpeekP.trans ((enterHandler_peek_of_untouched ret b vector hramP hkeepP).trans (by simp))
  have hone : u.sp + 1 = s.sp - 2 := by rw [hsp, enterHandler_sp, sub_add_cancel, sub_one_sub_one]
  have htwo : u.sp + 1 + 1 = s.sp - 1 := by rw [hone, ← sub_one_sub_one, sub_add_cancel]
  have hthree : u.sp + 1 + 1 + 1 = s.sp := by rw [htwo, sub_add_cancel]
  have hreadable : ∀ c, s.kindAt c = .ram → u.readable c = true := fun c hram =>
    readable_of_ram ((kindAt_of_memMap_eq (hmap.trans (enterHandler_memMap ..)) c).trans hram)
  rw [exec_rti_eq, returnFromHandler_of_untouched ?stacked, hthree, htwo, hone, hhigh, hlow, hp, joinBytes_highByte_lowByte,
    (statusByteRoundTrip.1 s.p b).2]
  case stacked =>
    rw [hthree, htwo, hone]
    simp only [List.forall_mem_cons]
    exact ⟨⟨hfreeP, hreadable _ hramP⟩, ⟨hfreeLow, hreadable _ hramLow⟩, ⟨hfreeHigh, hreadable _ hramHigh⟩, by simp⟩

end Sys2Proof.Proofs
end

section
/-! PROOFS. The end of a run and the cycle counts: a jump to itself changes nothing, and the model's counts are those of the table. -/

namespace Sys2Proof.Machine

/-- Under the quiet host a boundary runs the instruction in memory from the state as it is. -/
theorem step_of_quiet {s : State} {i : Instr} {rest : List Byte} (hhost : s.host = []) (hirq : s.irqHeld = false) (hbus : s.bus = [])
    (hnmi : s.nmiPending = false) (hwindow : s.iWindow = false)
    (hdecode : decode [s.peek s.pc, s.peek (s.pc + 1), s.peek (s.pc + 2)] = .instr i rest)
    (hread : ∀ j, j < i.length → s.readable (s.pc + BitVec.ofNat 16 j) = true) : step s = exec i s := by
  have hclosed : { s with iWindow := false } = s := by rw [← hwindow]
  have hboundary := Proofs.untakenBoundaryRunsTheInstruction.2 s hhost hnmi (by rw [hirq, Bool.false_and])
  rw [hclosed] at hboundary
  have hturns : ∀ n, s.busTurns n = s := busTurns_of_quiet hbus
  rw [step_of_run hboundary (fetchInstr_of_readable (by rwa [hturns, hturns, hturns]) hread), hturns]

/-- The displacement `$FE` takes a branch back to its own opcode. -/
theorem add_two_add_sext16_FE (pc : Addr) : pc + 2 + sext16 0xFE = pc := by
  have hback : 2 + sext16 0xFE = 0 := by decide
  rw [add_assoc, hback, add_zero]

/-- A branch taken with the displacement `$FE` changes nothing. -/
theorem branchIf_self (s : State) : branchIf true 0xFE s = .next s := by
  rw [branchIf_eq, if_pos rfl, add_two_add_sext16_FE]
  rfl

/-! ### Page crossings on numbers (70_reset_and_hazards.md R254) -/

theorem highByte_eq_iff {v w : Addr} : highByte v = highByte w ↔ v.toNat / 256 = w.toNat / 256 := by
  rw [← BitVec.toNat_inj, highByte_toNat, highByte_toNat]

/-- The cycle more where an index crosses a page. -/
theorem crossing_toNat (w : Addr) (x : Byte) :
    Claims.crossing w.toNat x = if (highByte (w + zext16 x) != highByte w) = true then 1 else 0 := by
  have hsum : (w + zext16 x).toNat = (w.toNat + x.toNat) % 65536 := by rw [BitVec.toNat_add, zext16_toNat]
  simp only [Claims.crossing, bne_iff_ne, ne_eq, ite_not, highByte_eq_iff, hsum]

/-- A signed displacement added modulo 65536, as an integer. -/
theorem toNat_add_sext16 (w : Addr) (d : Byte) : ((w + sext16 d).toNat : Int) = (w.toNat + d.toInt) % 65536 := by
  have hd : sext16 d = BitVec.ofInt 16 d.toInt := rfl
  have hw : w = BitVec.ofInt 16 w.toNat := by rw [BitVec.ofInt_natCast, BitVec.ofNat_toNat, BitVec.setWidth_eq]
  have hsum : w + sext16 d = BitVec.ofInt 16 (w.toNat + d.toInt) := by rw [BitVec.ofInt_add, ← hw, hd]
  rw [hsum, BitVec.toNat_ofInt, Int.toNat_of_nonneg (Int.emod_nonneg _ (by decide))]
  rfl

/-! ### The number an operand stands for -/

theorem operandNumber_byte {i : Instr} {op b : Byte} (h : encode i = [op, b]) : Claims.operandNumber i = b.toNat := by
  simp [Claims.operandNumber, h]

theorem operandNumber_word {i : Instr} {op : Byte} {w : Addr} (h : encode i = [op, lowByte w, highByte w]) :
    Claims.operandNumber i = w.toNat := by
  simp only [Claims.operandNumber, h, List.tail_cons, List.foldr_cons, List.foldr_nil, lowByte_toNat, highByte_toNat]
  omega

/-! ### The counts that depend on the state -/

/-- A read with an indexed absolute address: 4 cycles and one for a page crossing. -/
theorem cycles_of_absolute_indexed {i : Instr} {op : Byte} {w : Addr} {index : Byte} {s : State}
    (hbytes : encode i = [op, lowByte w, highByte w])
    (hcount : cyclesOf i s = 4 + if (highByte (w + zext16 index) != highByte w) = true then 1 else 0)
    (htable : Claims.tableCycles i s = 4 + Claims.crossing (Claims.operandNumber i) index) :
    cyclesOf i s = Claims.tableCycles i s := by
  rw [hcount, htable, operandNumber_word hbytes, crossing_toNat]

/-- A read by (Indirect),Y: 5 cycles and one where Y takes the pointer to another page. -/
theorem cycles_of_indirectY {i : Instr} {op b : Byte} {s : State} (hbytes : encode i = [op, b])
    (hcount : cyclesOf i s = 5 + if (Place.indirectY b).pageCrossed s = true then 1 else 0)
    (htable : Claims.tableCycles i s =
      5 + Claims.crossing (Claims.zeroPagePointerNumber s (Claims.operandNumber i)) s.y) :
    cyclesOf i s = Claims.tableCycles i s := by
  have hpointer : Claims.zeroPagePointerNumber s b.toNat = (s.zeroPagePointer b).1.toNat :=
    (zeroPagePointer_toNat s (by simp; omega) (by simp; omega)).symm
  rw [hcount, htable, operandNumber_byte hbytes, hpointer, crossing_toNat]
  rfl

/-- A branch: 2 cycles, 3 when taken, 4 when taken to another page. -/
theorem cycles_of_branch {i : Instr} {op d : Byte} {s : State} (hbytes : encode i = [op, d]) (hmode : i.mode = .relative)
    (hcount : cyclesOf i s = 2 + branchExtra s (Claims.branchCondition s.p i.mnemonic) d) :
    cyclesOf i s = Claims.tableCycles i s := by
  have hnext : (s.pc + 2).toNat = (s.pc.toNat + 2) % 65536 := BitVec.toNat_add s.pc 2
  have hpage : highByte (s.pc + 2 + sext16 d) = highByte (s.pc + 2) ↔
      (((s.pc.toNat + 2) % 65536 : Nat) + d.toInt) % 65536 / 256 = ((s.pc.toNat + 2) % 65536 : Nat) / 256 := by
    rw [highByte_eq_iff, ← Int.natCast_inj, Int.natCast_ediv, Int.natCast_ediv, toNat_add_sext16, hnext]
    rfl
  rw [hcount, Claims.tableCycles, hmode]
  simp only [operandNumber_byte hbytes, BitVec.ofNat_toNat, BitVec.setWidth_eq, branchExtra, hpage]
  cases Claims.branchCondition s.p i.mnemonic
  case false => rfl
  case true => simp only [Bool.not_true, Bool.false_eq_true, if_false, if_true]; split <;> rfl

end Sys2Proof.Machine

namespace Sys2Proof.Proofs

open Sys2Proof.Machine Sys2Proof.Claims

/-- Settles O57: JMP's operand and the branch's target are the address of the instruction itself. -/
theorem selfJumpHalts : Obligations.SelfJumpHalts := by
  intro s hhost hirq hbus hnmi hwindow hread0 hread1
  have hhalts : ∀ (i : Instr) (rest : List Byte), [s.peek s.pc, s.peek (s.pc + 1), s.peek (s.pc + 2)] = encode i ++ rest →
      (∀ j, j < i.length → s.readable (s.pc + BitVec.ofNat 16 j) = true) → exec i s = .next s → s.haltedBySelfLoop :=
    fun i rest hbytes hread hexec => ⟨hhost, hirq, hbus,
      (step_of_quiet hhost hirq hbus hnmi hwindow (by rw [hbytes, decodeInvertsEncode i rest]) hread).trans hexec⟩
  have hread : ∀ j, j < 2 → s.readable (s.pc + BitVec.ofNat 16 j) = true := fun j hj => by
    interval_cases j
    · rwa [BitVec.add_zero]
    · exact hread1
  refine ⟨fun hread2 hop hlow hhigh => ?jmp, fun hdisp => ?branch⟩
  case jmp =>
    refine hhalts (.jmpAbs s.pc) [] (by rw [hop, hlow, hhigh]; rfl) (fun j hj => ?_) ((jmpSetsPc.1 s.pc).2 s)
    have hj3 : j < 3 := hj
    rcases Nat.lt_succ_iff_lt_or_eq.1 hj3 with hlt | rfl
    · exact hread j hlt
    · exact hread2
  case branch =>
    have hself : ∀ (f : Byte → Instr) (cond : State → Bool), encode (f 0xFE) = [s.peek s.pc, 0xFE] → (f 0xFE).length = 2 →
        exec (f 0xFE) s = branchIf (cond s) 0xFE s → cond s = true → s.haltedBySelfLoop := by
      intro f cond hbytes hlength hexec htaken
      refine hhalts (f 0xFE) [s.peek (s.pc + 2)] (by rw [hbytes, hdisp]; rfl) (by rwa [hlength]) ?_
      rw [hexec, htaken, branchIf_self]
    rintro (⟨hop, hflag⟩ | ⟨hop, hflag⟩ | ⟨hop, hflag⟩ | ⟨hop, hflag⟩ |
      ⟨hop, hflag⟩ | ⟨hop, hflag⟩ | ⟨hop, hflag⟩ | ⟨hop, hflag⟩)
    · exact hself .bcc (fun s => !s.p.c) (by rw [hop]; rfl) rfl rfl (by simp [hflag])
    · exact hself .bcs (·.p.c) (by rw [hop]; rfl) rfl rfl hflag
    · exact hself .beq (·.p.z) (by rw [hop]; rfl) rfl rfl hflag
    · exact hself .bmi (·.p.n) (by rw [hop]; rfl) rfl rfl hflag
    · exact hself .bne (fun s => !s.p.z) (by rw [hop]; rfl) rfl rfl (by simp [hflag])
    · exact hself .bpl (fun s => !s.p.n) (by rw [hop]; rfl) rfl rfl (by simp [hflag])
    · exact hself .bvc (fun s => !s.p.v) (by rw [hop]; rfl) rfl rfl (by simp [hflag])
    · exact hself .bvs (·.p.v) (by rw [hop]; rfl) rfl rfl hflag

/-- Settles O58: only the indexed reads and the branches have a count that depends on the state; every other count is the table's
number for the mode and the class. -/
theorem cyclesFollowTheTable : Obligations.CyclesFollowTheTable := by
  intro i s
  cases i with
  | adcAbx w | cmpAbx w | sbcAbx w | andAbx w | eorAbx w | oraAbx w | ldaAbx w | ldyAbx w
  | adcAby w | cmpAby w | sbcAby w | andAby w | eorAby w | oraAby w | ldaAby w | ldxAby w =>
    exact cycles_of_absolute_indexed rfl rfl rfl
  | adcIzy b | cmpIzy b | sbcIzy b | andIzy b | eorIzy b | oraIzy b | ldaIzy b => exact cycles_of_indirectY rfl rfl rfl
  | bcc d | bcs d | beq d | bmi d | bne d | bpl d | bvc d | bvs d => exact cycles_of_branch rfl rfl rfl
  | _ => rfl

end Sys2Proof.Proofs
end
